-- ==== Sys2Proof/Word.lean ====
section
/-! DEFINITION. The word types of MMK-1: 00_scope.md R10 (XLEN = 64, a 128-bit accumulator, 32-bit instructions,
limb base 10^9) and 10_state.md R39 (a 32-bit program counter). -/

namespace Sys2Proof

/-- A scalar register's content (10_state.md R31). -/
abbrev Word := BitVec 64

/-- The accumulator's content (10_state.md R34). -/
abbrev Acc := BitVec 128

/-- An instruction word (30_encoding.md R110). -/
abbrev InstrWord := BitVec 32

/-- An IMEM word index: pc, START_PC, EPC (10_state.md R39). -/
abbrev Index := BitVec 32

/-- One byte of memory (20_memory.md R83). -/
abbrev Byte := BitVec 8

/-- The number of one of the 16 scalar registers (10_state.md R31). -/
abbrev XReg := Fin 16

/-- The number of one of the 8 big registers (10_state.md R36). -/
abbrev BReg := Fin 8

/-- The limb base 10^9 (00_scope.md R10). -/
def limbBase : Nat := 1000000000

end Sys2Proof
end

