-- ==== Sys2Proof/Config.lean ====
section
/-! DEFINITION. What an implementation fixes (00_scope.md R7 to R9) and the free values: what the spec leaves open
(93_implementation_defined.md U1, U2). A free value is an opaque constant, so that nothing can be proved of its value
and a claim holds whatever it is. -/

namespace Sys2Proof

/-- The implementation parameters, which 00_scope.md R7 to R9 call arguments of the model. -/
structure Params where
  /-- LMAX, the most limbs a big register or an image may hold (R7). -/
  lmax : Nat
  /-- IMEM_WORDS, the number of 32-bit words of IMEM (R8). -/
  imemWords : Nat
  /-- DMEM_BYTES, the number of bytes of DMEM (R8). -/
  dmemBytes : Nat
  /-- BASE, the host bus address of the interface (R9). -/
  base : Nat
deriving DecidableEq, Repr

/-- The defaults of R7 and R8. BASE is OPEN (R9), so 0 here is a DESIGN CHOICE (log 2, unsafe). -/
def Params.default : Params := { lmax := 256, imemWords := 4096, dmemBytes := 65536, base := 0 }

/-- The legal ranges of R7, R8 and R9. -/
def Params.legal (p : Params) : Bool :=
  4 ≤ p.lmax && p.lmax ≤ 65535 &&
  16 ≤ p.imemWords && p.imemWords ≤ 16384 &&
  64 ≤ p.dmemBytes && p.dmemBytes ≤ 1048576 && p.dmemBytes % 8 = 0 &&
  p.base % 0x200000 = 0

/-- FREE VALUE (U1, log 3): the IMEM byte at an address after the n-th power-on reset (20_memory.md R101). -/
opaque Config.powerOnImem : Nat → Nat → Byte

/-- FREE VALUE (U1, log 3): the DMEM byte at an address after the n-th power-on reset (20_memory.md R101). -/
opaque Config.powerOnDmem : Nat → Nat → Byte

/-- FREE VALUE (U2, log 8): whether the instruction in progress at the n-th soft reset completes
(70_reset_and_hazards.md R402). -/
opaque Config.softResetCompletes : Nat → Bool

end Sys2Proof
end

