-- ==== Sys2Proof/Syntax.lean ====
section
/-! DEFINITION. The instructions of MMK-1: one constructor for each row of spec/opcode_table.json, its operands those
of 30_encoding.md R118 in slot order (A, B, C, D, then the immediate). A register operand is its number. The immediates
of R117 are held as the fields they are: s16, z16 and off16 as 16 bits, off20 as 20 bits; a shift amount `sh` and a CSR
number `csr` are counts, whose ranges WellFormed.lean checks. -/

namespace Sys2Proof

/-- The 62 instructions (30_encoding.md R118, R119). -/
inductive Instr where
  /-- HALT, 46_scalar_control.md R310. -/
  | halt
  /-- NOP, 46_scalar_control.md R311. -/
  | nop
  /-- CSRR, 46_scalar_control.md R312. -/
  | csrr (xd : XReg) (csr : Nat)
  /-- CSRW, 46_scalar_control.md R313. -/
  | csrw (xs : XReg) (csr : Nat)
  /-- JAL, 46_scalar_control.md R328. -/
  | jal (xd : XReg) (off20 : BitVec 20)
  /-- JALR, 46_scalar_control.md R329. -/
  | jalr (xd : XReg) (xs : XReg) (s16 : BitVec 16)
  /-- BEQ, 46_scalar_control.md R330. -/
  | beq (xa : XReg) (xb : XReg) (off16 : BitVec 16)
  /-- BNE, 46_scalar_control.md R331. -/
  | bne (xa : XReg) (xb : XReg) (off16 : BitVec 16)
  /-- BLT, 46_scalar_control.md R332. -/
  | blt (xa : XReg) (xb : XReg) (off16 : BitVec 16)
  /-- BGE, 46_scalar_control.md R333. -/
  | bge (xa : XReg) (xb : XReg) (off16 : BitVec 16)
  /-- BLTU, 46_scalar_control.md R334. -/
  | bltu (xa : XReg) (xb : XReg) (off16 : BitVec 16)
  /-- BGEU, 46_scalar_control.md R335. -/
  | bgeu (xa : XReg) (xb : XReg) (off16 : BitVec 16)
  /-- ADD, 46_scalar_control.md R314. -/
  | add (xd : XReg) (xa : XReg) (xb : XReg)
  /-- SUB, 46_scalar_control.md R315. -/
  | sub (xd : XReg) (xa : XReg) (xb : XReg)
  /-- AND, 46_scalar_control.md R316. -/
  | and (xd : XReg) (xa : XReg) (xb : XReg)
  /-- OR, 46_scalar_control.md R317. -/
  | or (xd : XReg) (xa : XReg) (xb : XReg)
  /-- XOR, 46_scalar_control.md R318. -/
  | xor (xd : XReg) (xa : XReg) (xb : XReg)
  /-- SLL, 46_scalar_control.md R319. -/
  | sll (xd : XReg) (xa : XReg) (xb : XReg)
  /-- SRL, 46_scalar_control.md R320. -/
  | srl (xd : XReg) (xa : XReg) (xb : XReg)
  /-- SLTU, 46_scalar_control.md R321. -/
  | sltu (xd : XReg) (xa : XReg) (xb : XReg)
  /-- ADDI, 46_scalar_control.md R322. -/
  | addi (xd : XReg) (xa : XReg) (s16 : BitVec 16)
  /-- ORI, 46_scalar_control.md R323. -/
  | ori (xd : XReg) (xa : XReg) (z16 : BitVec 16)
  /-- SLLI, 46_scalar_control.md R324. -/
  | slli (xd : XReg) (xa : XReg) (sh : Nat)
  /-- SRLI, 46_scalar_control.md R325. -/
  | srli (xd : XReg) (xa : XReg) (sh : Nat)
  /-- ANDI, 46_scalar_control.md R326. -/
  | andi (xd : XReg) (xa : XReg) (z16 : BitVec 16)
  /-- MULLO, 40_limb_mac.md R151. -/
  | mullo (xd : XReg) (xa : XReg) (xb : XReg)
  /-- MULHU, 40_limb_mac.md R152. -/
  | mulhu (xd : XReg) (xa : XReg) (xb : XReg)
  /-- MUL128, 40_limb_mac.md R153. -/
  | mul128 (xa : XReg) (xb : XReg)
  /-- MAC128, 40_limb_mac.md R154. -/
  | mac128 (xa : XReg) (xb : XReg)
  /-- ACCADD, 40_limb_mac.md R155. -/
  | accadd (xa : XReg)
  /-- ACCSET, 40_limb_mac.md R156. -/
  | accset (xa : XReg) (xb : XReg)
  /-- ACCLO, 40_limb_mac.md R157. -/
  | acclo (xd : XReg)
  /-- ACCHI, 40_limb_mac.md R158. -/
  | acchi (xd : XReg)
  /-- ACCNORM, 40_limb_mac.md R159. -/
  | accnorm (xd : XReg)
  /-- ACCPOP, 40_limb_mac.md R160. -/
  | accpop (xd : XReg)
  /-- BADD, 41_bigint.md R181. -/
  | badd (bd : BReg) (ba : BReg) (bb : BReg)
  /-- BSUB, 41_bigint.md R182. -/
  | bsub (bd : BReg) (ba : BReg) (bb : BReg)
  /-- BNEG, 41_bigint.md R183. -/
  | bneg (bd : BReg) (ba : BReg)
  /-- BMUL, 42_multiply.md R221. -/
  | bmul (bd : BReg) (ba : BReg) (bb : BReg)
  /-- KMUL, 42_multiply.md R223. -/
  | kmul (bd : BReg) (ba : BReg) (bb : BReg)
  /-- BDIV, 41_bigint.md R184. -/
  | bdiv (bd : BReg) (ba : BReg) (bb : BReg)
  /-- BREM, 41_bigint.md R185. -/
  | brem (bd : BReg) (ba : BReg) (bb : BReg)
  /-- BCMP, 41_bigint.md R187. -/
  | bcmp (xd : XReg) (ba : BReg) (bb : BReg)
  /-- BMOV, 41_bigint.md R188. -/
  | bmov (bd : BReg) (ba : BReg)
  /-- BFROMX, 41_bigint.md R189. -/
  | bfromx (bd : BReg) (xs : XReg)
  /-- BLI, 41_bigint.md R190. -/
  | bli (bd : BReg) (s16 : BitVec 16)
  /-- BLEN, 41_bigint.md R191. -/
  | blen (xd : XReg) (ba : BReg)
  /-- BLIMB, 41_bigint.md R192. -/
  | blimb (xd : XReg) (ba : BReg) (xs : XReg)
  /-- BSGN, 41_bigint.md R193. -/
  | bsgn (xd : XReg) (ba : BReg)
  /-- MMOD, 43_modular.md R241. -/
  | mmod (bd : BReg) (ba : BReg) (bm : BReg)
  /-- MADD, 43_modular.md R242. -/
  | madd (bd : BReg) (ba : BReg) (bb : BReg) (bm : BReg)
  /-- MSUB, 43_modular.md R243. -/
  | msub (bd : BReg) (ba : BReg) (bb : BReg) (bm : BReg)
  /-- MMUL, 43_modular.md R244. -/
  | mmul (bd : BReg) (ba : BReg) (bb : BReg) (bm : BReg)
  /-- MSQR, 43_modular.md R245. -/
  | msqr (bd : BReg) (ba : BReg) (bm : BReg)
  /-- MEXP, 43_modular.md R247. -/
  | mexp (bd : BReg) (ba : BReg) (bn : BReg) (bm : BReg)
  /-- MREDC, 44_montgomery.md R271. -/
  | mredc (bd : BReg) (bt : BReg) (bm : BReg)
  /-- MMONT, 44_montgomery.md R272. -/
  | mmont (bd : BReg) (ba : BReg) (bb : BReg) (bm : BReg)
  /-- MTOM, 44_montgomery.md R273. -/
  | mtom (bd : BReg) (ba : BReg) (bm : BReg)
  /-- LD, 45_loadstore.md R290. -/
  | ld (xd : XReg) (xs : XReg) (s16 : BitVec 16)
  /-- SD, 45_loadstore.md R291. -/
  | sd (xa : XReg) (xs : XReg) (s16 : BitVec 16)
  /-- BLD, 45_loadstore.md R293. -/
  | bld (bd : BReg) (xs : XReg) (s16 : BitVec 16)
  /-- BST, 45_loadstore.md R295. -/
  | bst (ba : BReg) (xs : XReg) (s16 : BitVec 16)
deriving DecidableEq, Repr

/-- The mnemonic of spec/opcode_table.json (30_encoding.md R118). -/
def Instr.mnemonic : Instr → String
  | .halt => "HALT"
  | .nop => "NOP"
  | .csrr _ _ => "CSRR"
  | .csrw _ _ => "CSRW"
  | .jal _ _ => "JAL"
  | .jalr _ _ _ => "JALR"
  | .beq _ _ _ => "BEQ"
  | .bne _ _ _ => "BNE"
  | .blt _ _ _ => "BLT"
  | .bge _ _ _ => "BGE"
  | .bltu _ _ _ => "BLTU"
  | .bgeu _ _ _ => "BGEU"
  | .add _ _ _ => "ADD"
  | .sub _ _ _ => "SUB"
  | .and _ _ _ => "AND"
  | .or _ _ _ => "OR"
  | .xor _ _ _ => "XOR"
  | .sll _ _ _ => "SLL"
  | .srl _ _ _ => "SRL"
  | .sltu _ _ _ => "SLTU"
  | .addi _ _ _ => "ADDI"
  | .ori _ _ _ => "ORI"
  | .slli _ _ _ => "SLLI"
  | .srli _ _ _ => "SRLI"
  | .andi _ _ _ => "ANDI"
  | .mullo _ _ _ => "MULLO"
  | .mulhu _ _ _ => "MULHU"
  | .mul128 _ _ => "MUL128"
  | .mac128 _ _ => "MAC128"
  | .accadd _ => "ACCADD"
  | .accset _ _ => "ACCSET"
  | .acclo _ => "ACCLO"
  | .acchi _ => "ACCHI"
  | .accnorm _ => "ACCNORM"
  | .accpop _ => "ACCPOP"
  | .badd _ _ _ => "BADD"
  | .bsub _ _ _ => "BSUB"
  | .bneg _ _ => "BNEG"
  | .bmul _ _ _ => "BMUL"
  | .kmul _ _ _ => "KMUL"
  | .bdiv _ _ _ => "BDIV"
  | .brem _ _ _ => "BREM"
  | .bcmp _ _ _ => "BCMP"
  | .bmov _ _ => "BMOV"
  | .bfromx _ _ => "BFROMX"
  | .bli _ _ => "BLI"
  | .blen _ _ => "BLEN"
  | .blimb _ _ _ => "BLIMB"
  | .bsgn _ _ => "BSGN"
  | .mmod _ _ _ => "MMOD"
  | .madd _ _ _ _ => "MADD"
  | .msub _ _ _ _ => "MSUB"
  | .mmul _ _ _ _ => "MMUL"
  | .msqr _ _ _ => "MSQR"
  | .mexp _ _ _ _ => "MEXP"
  | .mredc _ _ _ => "MREDC"
  | .mmont _ _ _ _ => "MMONT"
  | .mtom _ _ _ => "MTOM"
  | .ld _ _ _ => "LD"
  | .sd _ _ _ => "SD"
  | .bld _ _ _ => "BLD"
  | .bst _ _ _ => "BST"

end Sys2Proof
end

