-- ==== Sys2Proof/WellFormed.lean ====
section
/-! DEFINITION. Which terms of `Instr` an instruction word can hold (30_encoding.md R117, R131): a shift amount below 64
and a CSR number of 12 bits. Every other operand's type admits exactly the values its field admits. -/

namespace Sys2Proof

/-- R117: `sh` is 0 to 63. -/
def shiftOk (sh : Nat) : Bool := sh < 64

/-- R117: `csr` is a 12-bit number. -/
def csrOk (csr : Nat) : Bool := csr < 4096

/-- Every operand is in the range its field admits. -/
def Instr.wellFormed : Instr → Bool
  | .halt => true
  | .nop => true
  | .csrr _ csr => csrOk csr
  | .csrw _ csr => csrOk csr
  | .jal _ _ => true
  | .jalr _ _ _ => true
  | .beq _ _ _ => true
  | .bne _ _ _ => true
  | .blt _ _ _ => true
  | .bge _ _ _ => true
  | .bltu _ _ _ => true
  | .bgeu _ _ _ => true
  | .add _ _ _ => true
  | .sub _ _ _ => true
  | .and _ _ _ => true
  | .or _ _ _ => true
  | .xor _ _ _ => true
  | .sll _ _ _ => true
  | .srl _ _ _ => true
  | .sltu _ _ _ => true
  | .addi _ _ _ => true
  | .ori _ _ _ => true
  | .slli _ _ sh => shiftOk sh
  | .srli _ _ sh => shiftOk sh
  | .andi _ _ _ => true
  | .mullo _ _ _ => true
  | .mulhu _ _ _ => true
  | .mul128 _ _ => true
  | .mac128 _ _ => true
  | .accadd _ => true
  | .accset _ _ => true
  | .acclo _ => true
  | .acchi _ => true
  | .accnorm _ => true
  | .accpop _ => true
  | .badd _ _ _ => true
  | .bsub _ _ _ => true
  | .bneg _ _ => true
  | .bmul _ _ _ => true
  | .kmul _ _ _ => true
  | .bdiv _ _ _ => true
  | .brem _ _ _ => true
  | .bcmp _ _ _ => true
  | .bmov _ _ => true
  | .bfromx _ _ => true
  | .bli _ _ => true
  | .blen _ _ => true
  | .blimb _ _ _ => true
  | .bsgn _ _ => true
  | .mmod _ _ _ => true
  | .madd _ _ _ _ => true
  | .msub _ _ _ _ => true
  | .mmul _ _ _ _ => true
  | .msqr _ _ _ => true
  | .mexp _ _ _ _ => true
  | .mredc _ _ _ => true
  | .mmont _ _ _ _ => true
  | .mtom _ _ _ => true
  | .ld _ _ _ => true
  | .sd _ _ _ => true
  | .bld _ _ _ => true
  | .bst _ _ _ => true

end Sys2Proof
end

