-- ==== Sys2Proof/Decode.lean ====
section
/-! DEFINITION. Decoding and encoding, 30_encoding.md. The table `opRows` is R118 row by row, `decode` is R120 over it,
`encode` is R111 to R118 read the other way. `maskTable` is the match and mask of spec/opcode_table.json, which R120 says
gives the same test. -/

namespace Sys2Proof

/-- R11: bits hi down to lo of a word, as a number. -/
def bits (w : InstrWord) (hi lo : Nat) : Nat := w.toNat / 2 ^ lo % 2 ^ (hi - lo + 1)

/-- R111: slot A, bits 23:20. -/
def slotA (w : InstrWord) : Nat := bits w 23 20
/-- R111: slot B, bits 19:16. -/
def slotB (w : InstrWord) : Nat := bits w 19 16
/-- R111: slot C, bits 15:12. -/
def slotC (w : InstrWord) : Nat := bits w 15 12
/-- R111: slot D, bits 11:8. -/
def slotD (w : InstrWord) : Nat := bits w 11 8

/-- R116: a 4-bit slot value as a scalar register. -/
def xSlot (n : Nat) : XReg := Fin.ofNat 16 n
/-- R116: a slot value as a big register; `OpRow.defect` refuses a value of 8 or more. -/
def bSlot (n : Nat) : BReg := Fin.ofNat 8 n

/-- Slot A as a scalar register. -/
def xA (w : InstrWord) : XReg := xSlot (slotA w)
/-- Slot B as a scalar register. -/
def xB (w : InstrWord) : XReg := xSlot (slotB w)
/-- Slot C as a scalar register. -/
def xC (w : InstrWord) : XReg := xSlot (slotC w)
/-- Slot A as a big register. -/
def bA (w : InstrWord) : BReg := bSlot (slotA w)
/-- Slot B as a big register. -/
def bB (w : InstrWord) : BReg := bSlot (slotB w)
/-- Slot C as a big register. -/
def bC (w : InstrWord) : BReg := bSlot (slotC w)
/-- Slot D as a big register. -/
def bD (w : InstrWord) : BReg := bSlot (slotD w)

/-- R111: imm16, bits 15:0. -/
def imm16 (w : InstrWord) : BitVec 16 := BitVec.ofNat 16 (bits w 15 0)
/-- R111: imm20, bits 19:0. -/
def imm20 (w : InstrWord) : BitVec 20 := BitVec.ofNat 20 (bits w 19 0)
/-- R117: `sh`, bits 5:0. -/
def shField (w : InstrWord) : Nat := bits w 5 0
/-- R117: `csr`, bits 11:0. -/
def csrField (w : InstrWord) : Nat := bits w 11 0

/-- The four formats (R112 to R115). -/
inductive Format where
  | n | r | i | j
deriving DecidableEq, Repr

/-- What R118 says of a slot: it must be 0, it names an x or a b register, or it is part of the immediate. -/
inductive Slot where
  | zero | x | b | imm
deriving DecidableEq, Repr

/-- The immediate kinds of R117. -/
inductive ImmKind where
  | none | s16 | z16 | sh | csr | off16 | off20
deriving DecidableEq, Repr

/-- Why a word is illegal (R130, R131), in the order of the checks of R120. -/
inductive Illegal where
  /-- R130: the opcode is none of the 62. -/
  | unassignedOpcode
  /-- R131: a slot that must be 0 is not. -/
  | reservedSlot
  /-- R113: bits 7:0 of a format R word are not 0. -/
  | reservedZ
  /-- R112: bits 23:0 of a format N word are not 0. -/
  | reservedOperands
  /-- R116: a big-register slot of 8 or more. -/
  | notBigRegister
  /-- R117: bits 15:6 of SLLI or SRLI are not 0. -/
  | shiftRange
  /-- R117: bits 15:12 of CSRR or CSRW are not 0. -/
  | csrRange
deriving DecidableEq, Repr

/-- What decoding answers: an instruction, or a rejection by name. -/
inductive Decoded where
  | instr (i : Instr)
  | illegal (why : Illegal)
deriving DecidableEq, Repr

/-- One row of the operand table of R118. -/
structure OpRow where
  /-- The opcode, bits 31:24. -/
  code : Nat
  /-- The mnemonic. -/
  mnemonic : String
  /-- The format. -/
  fmt : Format
  /-- Slot A. -/
  a : Slot
  /-- Slot B. -/
  b : Slot
  /-- Slot C. -/
  c : Slot
  /-- Slot D. -/
  d : Slot
  /-- The immediate's kind. -/
  imm : ImmKind
  /-- The instruction that a legal word of the row is. -/
  build : InstrWord → Instr

/-- System and control transfer, 0x00 to 0x0F (R118, R119). -/
def opRowsControl : List OpRow := [
  ⟨0x01, "HALT", .n, .zero, .zero, .zero, .zero, .none, fun _ => .halt⟩,
  ⟨0x02, "NOP", .n, .zero, .zero, .zero, .zero, .none, fun _ => .nop⟩,
  ⟨0x03, "CSRR", .i, .x, .zero, .imm, .imm, .csr, fun w => .csrr (xA w) (csrField w)⟩,
  ⟨0x04, "CSRW", .i, .x, .zero, .imm, .imm, .csr, fun w => .csrw (xA w) (csrField w)⟩,
  ⟨0x08, "JAL", .j, .x, .imm, .imm, .imm, .off20, fun w => .jal (xA w) (imm20 w)⟩,
  ⟨0x09, "JALR", .i, .x, .x, .imm, .imm, .s16, fun w => .jalr (xA w) (xB w) (imm16 w)⟩,
  ⟨0x0A, "BEQ", .i, .x, .x, .imm, .imm, .off16, fun w => .beq (xA w) (xB w) (imm16 w)⟩,
  ⟨0x0B, "BNE", .i, .x, .x, .imm, .imm, .off16, fun w => .bne (xA w) (xB w) (imm16 w)⟩,
  ⟨0x0C, "BLT", .i, .x, .x, .imm, .imm, .off16, fun w => .blt (xA w) (xB w) (imm16 w)⟩,
  ⟨0x0D, "BGE", .i, .x, .x, .imm, .imm, .off16, fun w => .bge (xA w) (xB w) (imm16 w)⟩,
  ⟨0x0E, "BLTU", .i, .x, .x, .imm, .imm, .off16, fun w => .bltu (xA w) (xB w) (imm16 w)⟩,
  ⟨0x0F, "BGEU", .i, .x, .x, .imm, .imm, .off16, fun w => .bgeu (xA w) (xB w) (imm16 w)⟩]

/-- Scalar ALU, 0x10 to 0x1F (R118, R119). -/
def opRowsAlu : List OpRow := [
  ⟨0x10, "ADD", .r, .x, .x, .x, .zero, .none, fun w => .add (xA w) (xB w) (xC w)⟩,
  ⟨0x11, "SUB", .r, .x, .x, .x, .zero, .none, fun w => .sub (xA w) (xB w) (xC w)⟩,
  ⟨0x12, "AND", .r, .x, .x, .x, .zero, .none, fun w => .and (xA w) (xB w) (xC w)⟩,
  ⟨0x13, "OR", .r, .x, .x, .x, .zero, .none, fun w => .or (xA w) (xB w) (xC w)⟩,
  ⟨0x14, "XOR", .r, .x, .x, .x, .zero, .none, fun w => .xor (xA w) (xB w) (xC w)⟩,
  ⟨0x15, "SLL", .r, .x, .x, .x, .zero, .none, fun w => .sll (xA w) (xB w) (xC w)⟩,
  ⟨0x16, "SRL", .r, .x, .x, .x, .zero, .none, fun w => .srl (xA w) (xB w) (xC w)⟩,
  ⟨0x17, "SLTU", .r, .x, .x, .x, .zero, .none, fun w => .sltu (xA w) (xB w) (xC w)⟩,
  ⟨0x18, "ADDI", .i, .x, .x, .imm, .imm, .s16, fun w => .addi (xA w) (xB w) (imm16 w)⟩,
  ⟨0x19, "ORI", .i, .x, .x, .imm, .imm, .z16, fun w => .ori (xA w) (xB w) (imm16 w)⟩,
  ⟨0x1A, "SLLI", .i, .x, .x, .imm, .imm, .sh, fun w => .slli (xA w) (xB w) (shField w)⟩,
  ⟨0x1B, "SRLI", .i, .x, .x, .imm, .imm, .sh, fun w => .srli (xA w) (xB w) (shField w)⟩,
  ⟨0x1C, "ANDI", .i, .x, .x, .imm, .imm, .z16, fun w => .andi (xA w) (xB w) (imm16 w)⟩]

/-- 64 x 64 multiply and accumulator, 0x20 to 0x2F (R118, R119). -/
def opRowsMac : List OpRow := [
  ⟨0x20, "MULLO", .r, .x, .x, .x, .zero, .none, fun w => .mullo (xA w) (xB w) (xC w)⟩,
  ⟨0x21, "MULHU", .r, .x, .x, .x, .zero, .none, fun w => .mulhu (xA w) (xB w) (xC w)⟩,
  ⟨0x22, "MUL128", .r, .zero, .x, .x, .zero, .none, fun w => .mul128 (xB w) (xC w)⟩,
  ⟨0x23, "MAC128", .r, .zero, .x, .x, .zero, .none, fun w => .mac128 (xB w) (xC w)⟩,
  ⟨0x24, "ACCADD", .r, .zero, .x, .zero, .zero, .none, fun w => .accadd (xB w)⟩,
  ⟨0x25, "ACCSET", .r, .zero, .x, .x, .zero, .none, fun w => .accset (xB w) (xC w)⟩,
  ⟨0x26, "ACCLO", .r, .x, .zero, .zero, .zero, .none, fun w => .acclo (xA w)⟩,
  ⟨0x27, "ACCHI", .r, .x, .zero, .zero, .zero, .none, fun w => .acchi (xA w)⟩,
  ⟨0x28, "ACCNORM", .r, .x, .zero, .zero, .zero, .none, fun w => .accnorm (xA w)⟩,
  ⟨0x29, "ACCPOP", .r, .x, .zero, .zero, .zero, .none, fun w => .accpop (xA w)⟩]

/-- BigInt arithmetic and multiply, 0x30 to 0x3F (R118, R119). -/
def opRowsBig : List OpRow := [
  ⟨0x30, "BADD", .r, .b, .b, .b, .zero, .none, fun w => .badd (bA w) (bB w) (bC w)⟩,
  ⟨0x31, "BSUB", .r, .b, .b, .b, .zero, .none, fun w => .bsub (bA w) (bB w) (bC w)⟩,
  ⟨0x32, "BNEG", .r, .b, .b, .zero, .zero, .none, fun w => .bneg (bA w) (bB w)⟩,
  ⟨0x33, "BMUL", .r, .b, .b, .b, .zero, .none, fun w => .bmul (bA w) (bB w) (bC w)⟩,
  ⟨0x34, "KMUL", .r, .b, .b, .b, .zero, .none, fun w => .kmul (bA w) (bB w) (bC w)⟩,
  ⟨0x35, "BDIV", .r, .b, .b, .b, .zero, .none, fun w => .bdiv (bA w) (bB w) (bC w)⟩,
  ⟨0x36, "BREM", .r, .b, .b, .b, .zero, .none, fun w => .brem (bA w) (bB w) (bC w)⟩,
  ⟨0x37, "BCMP", .r, .x, .b, .b, .zero, .none, fun w => .bcmp (xA w) (bB w) (bC w)⟩,
  ⟨0x38, "BMOV", .r, .b, .b, .zero, .zero, .none, fun w => .bmov (bA w) (bB w)⟩,
  ⟨0x39, "BFROMX", .r, .b, .x, .zero, .zero, .none, fun w => .bfromx (bA w) (xB w)⟩,
  ⟨0x3A, "BLI", .i, .b, .zero, .imm, .imm, .s16, fun w => .bli (bA w) (imm16 w)⟩,
  ⟨0x3B, "BLEN", .r, .x, .b, .zero, .zero, .none, fun w => .blen (xA w) (bB w)⟩,
  ⟨0x3C, "BLIMB", .r, .x, .b, .x, .zero, .none, fun w => .blimb (xA w) (bB w) (xC w)⟩,
  ⟨0x3D, "BSGN", .r, .x, .b, .zero, .zero, .none, fun w => .bsgn (xA w) (bB w)⟩]

/-- Modular and Montgomery, 0x40 to 0x4F (R118, R119). -/
def opRowsModular : List OpRow := [
  ⟨0x40, "MMOD", .r, .b, .b, .b, .zero, .none, fun w => .mmod (bA w) (bB w) (bC w)⟩,
  ⟨0x41, "MADD", .r, .b, .b, .b, .b, .none, fun w => .madd (bA w) (bB w) (bC w) (bD w)⟩,
  ⟨0x42, "MSUB", .r, .b, .b, .b, .b, .none, fun w => .msub (bA w) (bB w) (bC w) (bD w)⟩,
  ⟨0x43, "MMUL", .r, .b, .b, .b, .b, .none, fun w => .mmul (bA w) (bB w) (bC w) (bD w)⟩,
  ⟨0x44, "MSQR", .r, .b, .b, .b, .zero, .none, fun w => .msqr (bA w) (bB w) (bC w)⟩,
  ⟨0x45, "MEXP", .r, .b, .b, .b, .b, .none, fun w => .mexp (bA w) (bB w) (bC w) (bD w)⟩,
  ⟨0x48, "MREDC", .r, .b, .b, .b, .zero, .none, fun w => .mredc (bA w) (bB w) (bC w)⟩,
  ⟨0x49, "MMONT", .r, .b, .b, .b, .b, .none, fun w => .mmont (bA w) (bB w) (bC w) (bD w)⟩,
  ⟨0x4A, "MTOM", .r, .b, .b, .b, .zero, .none, fun w => .mtom (bA w) (bB w) (bC w)⟩]

/-- Loads and stores, 0x50 to 0x5F (R118, R119). -/
def opRowsMemory : List OpRow := [
  ⟨0x50, "LD", .i, .x, .x, .imm, .imm, .s16, fun w => .ld (xA w) (xB w) (imm16 w)⟩,
  ⟨0x51, "SD", .i, .x, .x, .imm, .imm, .s16, fun w => .sd (xA w) (xB w) (imm16 w)⟩,
  ⟨0x52, "BLD", .i, .b, .x, .imm, .imm, .s16, fun w => .bld (bA w) (xB w) (imm16 w)⟩,
  ⟨0x53, "BST", .i, .b, .x, .imm, .imm, .s16, fun w => .bst (bA w) (xB w) (imm16 w)⟩]

/-- The operand table of R118. -/
def opRows : List OpRow :=
  opRowsControl ++ opRowsAlu ++ opRowsMac ++ opRowsBig ++ opRowsModular ++ opRowsMemory

/-- R118, R131: does a slot of this kind, holding this value, have to be 0 and is not? -/
def Slot.notZero (k : Slot) (v : Nat) : Bool := k = .zero && v != 0

/-- R116, R131: is a slot of this kind, holding this value, a big register that does not exist? -/
def Slot.notBig (k : Slot) (v : Nat) : Bool := k = .b && 8 ≤ v

/-- The checks of R120 for a word of the row's opcode, in R120's order: the first one that fails. -/
def OpRow.defect (r : OpRow) (w : InstrWord) : Option Illegal :=
  if r.a.notZero (slotA w) || r.b.notZero (slotB w) || r.c.notZero (slotC w) || r.d.notZero (slotD w) then
    some .reservedSlot
  else if r.fmt = .r && bits w 7 0 != 0 then some .reservedZ
  else if r.fmt = .n && bits w 23 0 != 0 then some .reservedOperands
  else if r.a.notBig (slotA w) || r.b.notBig (slotB w) || r.c.notBig (slotC w) || r.d.notBig (slotD w) then
    some .notBigRegister
  else if r.imm = .sh && bits w 15 6 != 0 then some .shiftRange
  else if r.imm = .csr && bits w 15 12 != 0 then some .csrRange
  else none

/-- The row of an opcode. -/
def findRow (code : Nat) : Option OpRow := opRows.find? fun r => r.code == code

/-- R120: decode a word. Every word is an instruction or is rejected by name. -/
def decode (w : InstrWord) : Decoded :=
  match findRow (bits w 31 24) with
  | none => .illegal .unassignedOpcode
  | some r =>
    match r.defect w with
    | some why => .illegal why
    | none => .instr (r.build w)

/-- The instruction the decoder reads from the instruction whose bits are `w`, numbered as spec/opcode_table.json
numbers them; every bit above `nbits` is 0. IMEM holds a word as one 32-bit value (20_memory.md R82). -/
def decodeTableWord (nbits w : Nat) : Option Instr :=
  match decode (BitVec.ofNat 32 (w % 2 ^ nbits)) with
  | .instr i => some i
  | .illegal _ => none

/-- R113: a format R word (and, with four zero slots, a format N word, R112). -/
def wordR (op a b c d : Nat) : InstrWord :=
  BitVec.ofNat 32 (op * 2 ^ 24 + a * 2 ^ 20 + b * 2 ^ 16 + c * 2 ^ 12 + d * 2 ^ 8)

/-- R114: a format I word. -/
def wordI (op a b imm : Nat) : InstrWord :=
  BitVec.ofNat 32 (op * 2 ^ 24 + a * 2 ^ 20 + b * 2 ^ 16 + imm)

/-- R115: a format J word. -/
def wordJ (op a imm : Nat) : InstrWord :=
  BitVec.ofNat 32 (op * 2 ^ 24 + a * 2 ^ 20 + imm)

/-- The word of a well-formed instruction (R111 to R118). -/
def encode : Instr → InstrWord
  | .halt => wordR 0x01 0 0 0 0
  | .nop => wordR 0x02 0 0 0 0
  | .csrr xd csr => wordI 0x03 xd 0 csr
  | .csrw xs csr => wordI 0x04 xs 0 csr
  | .jal xd off20 => wordJ 0x08 xd off20.toNat
  | .jalr xd xs s16 => wordI 0x09 xd xs s16.toNat
  | .beq xa xb off16 => wordI 0x0A xa xb off16.toNat
  | .bne xa xb off16 => wordI 0x0B xa xb off16.toNat
  | .blt xa xb off16 => wordI 0x0C xa xb off16.toNat
  | .bge xa xb off16 => wordI 0x0D xa xb off16.toNat
  | .bltu xa xb off16 => wordI 0x0E xa xb off16.toNat
  | .bgeu xa xb off16 => wordI 0x0F xa xb off16.toNat
  | .add xd xa xb => wordR 0x10 xd xa xb 0
  | .sub xd xa xb => wordR 0x11 xd xa xb 0
  | .and xd xa xb => wordR 0x12 xd xa xb 0
  | .or xd xa xb => wordR 0x13 xd xa xb 0
  | .xor xd xa xb => wordR 0x14 xd xa xb 0
  | .sll xd xa xb => wordR 0x15 xd xa xb 0
  | .srl xd xa xb => wordR 0x16 xd xa xb 0
  | .sltu xd xa xb => wordR 0x17 xd xa xb 0
  | .addi xd xa s16 => wordI 0x18 xd xa s16.toNat
  | .ori xd xa z16 => wordI 0x19 xd xa z16.toNat
  | .slli xd xa sh => wordI 0x1A xd xa sh
  | .srli xd xa sh => wordI 0x1B xd xa sh
  | .andi xd xa z16 => wordI 0x1C xd xa z16.toNat
  | .mullo xd xa xb => wordR 0x20 xd xa xb 0
  | .mulhu xd xa xb => wordR 0x21 xd xa xb 0
  | .mul128 xa xb => wordR 0x22 0 xa xb 0
  | .mac128 xa xb => wordR 0x23 0 xa xb 0
  | .accadd xa => wordR 0x24 0 xa 0 0
  | .accset xa xb => wordR 0x25 0 xa xb 0
  | .acclo xd => wordR 0x26 xd 0 0 0
  | .acchi xd => wordR 0x27 xd 0 0 0
  | .accnorm xd => wordR 0x28 xd 0 0 0
  | .accpop xd => wordR 0x29 xd 0 0 0
  | .badd bd ba bb => wordR 0x30 bd ba bb 0
  | .bsub bd ba bb => wordR 0x31 bd ba bb 0
  | .bneg bd ba => wordR 0x32 bd ba 0 0
  | .bmul bd ba bb => wordR 0x33 bd ba bb 0
  | .kmul bd ba bb => wordR 0x34 bd ba bb 0
  | .bdiv bd ba bb => wordR 0x35 bd ba bb 0
  | .brem bd ba bb => wordR 0x36 bd ba bb 0
  | .bcmp xd ba bb => wordR 0x37 xd ba bb 0
  | .bmov bd ba => wordR 0x38 bd ba 0 0
  | .bfromx bd xs => wordR 0x39 bd xs 0 0
  | .bli bd s16 => wordI 0x3A bd 0 s16.toNat
  | .blen xd ba => wordR 0x3B xd ba 0 0
  | .blimb xd ba xs => wordR 0x3C xd ba xs 0
  | .bsgn xd ba => wordR 0x3D xd ba 0 0
  | .mmod bd ba bm => wordR 0x40 bd ba bm 0
  | .madd bd ba bb bm => wordR 0x41 bd ba bb bm
  | .msub bd ba bb bm => wordR 0x42 bd ba bb bm
  | .mmul bd ba bb bm => wordR 0x43 bd ba bb bm
  | .msqr bd ba bm => wordR 0x44 bd ba bm 0
  | .mexp bd ba bn bm => wordR 0x45 bd ba bn bm
  | .mredc bd bt bm => wordR 0x48 bd bt bm 0
  | .mmont bd ba bb bm => wordR 0x49 bd ba bb bm
  | .mtom bd ba bm => wordR 0x4A bd ba bm 0
  | .ld xd xs s16 => wordI 0x50 xd xs s16.toNat
  | .sd xa xs s16 => wordI 0x51 xa xs s16.toNat
  | .bld bd xs s16 => wordI 0x52 bd xs s16.toNat
  | .bst ba xs s16 => wordI 0x53 ba xs s16.toNat

/-- A row of spec/opcode_table.json: mnemonic, match, mask. -/
structure MaskRow where
  /-- The mnemonic. -/
  mnemonic : String
  /-- The value the masked word has. -/
  pattern : InstrWord
  /-- The bits the row fixes. -/
  mask : InstrWord
deriving DecidableEq, Repr

/-- R120: the row's test, `w & mask == match`. -/
def MaskRow.accepts (r : MaskRow) (w : InstrWord) : Bool := w &&& r.mask == r.pattern

/-- System and control transfer, 0x00 to 0x0F: match and mask (spec/opcode_table.json). -/
def maskRowsControl : List MaskRow := [
  ⟨"HALT", 0x01000000, 0xFFFFFFFF⟩,
  ⟨"NOP", 0x02000000, 0xFFFFFFFF⟩,
  ⟨"CSRR", 0x03000000, 0xFF0FF000⟩,
  ⟨"CSRW", 0x04000000, 0xFF0FF000⟩,
  ⟨"JAL", 0x08000000, 0xFF000000⟩,
  ⟨"JALR", 0x09000000, 0xFF000000⟩,
  ⟨"BEQ", 0x0A000000, 0xFF000000⟩,
  ⟨"BNE", 0x0B000000, 0xFF000000⟩,
  ⟨"BLT", 0x0C000000, 0xFF000000⟩,
  ⟨"BGE", 0x0D000000, 0xFF000000⟩,
  ⟨"BLTU", 0x0E000000, 0xFF000000⟩,
  ⟨"BGEU", 0x0F000000, 0xFF000000⟩]

/-- Scalar ALU, 0x10 to 0x1F: match and mask (spec/opcode_table.json). -/
def maskRowsAlu : List MaskRow := [
  ⟨"ADD", 0x10000000, 0xFF000FFF⟩,
  ⟨"SUB", 0x11000000, 0xFF000FFF⟩,
  ⟨"AND", 0x12000000, 0xFF000FFF⟩,
  ⟨"OR", 0x13000000, 0xFF000FFF⟩,
  ⟨"XOR", 0x14000000, 0xFF000FFF⟩,
  ⟨"SLL", 0x15000000, 0xFF000FFF⟩,
  ⟨"SRL", 0x16000000, 0xFF000FFF⟩,
  ⟨"SLTU", 0x17000000, 0xFF000FFF⟩,
  ⟨"ADDI", 0x18000000, 0xFF000000⟩,
  ⟨"ORI", 0x19000000, 0xFF000000⟩,
  ⟨"SLLI", 0x1A000000, 0xFF00FFC0⟩,
  ⟨"SRLI", 0x1B000000, 0xFF00FFC0⟩,
  ⟨"ANDI", 0x1C000000, 0xFF000000⟩]

/-- 64 x 64 multiply and accumulator, 0x20 to 0x2F: match and mask (spec/opcode_table.json). -/
def maskRowsMac : List MaskRow := [
  ⟨"MULLO", 0x20000000, 0xFF000FFF⟩,
  ⟨"MULHU", 0x21000000, 0xFF000FFF⟩,
  ⟨"MUL128", 0x22000000, 0xFFF00FFF⟩,
  ⟨"MAC128", 0x23000000, 0xFFF00FFF⟩,
  ⟨"ACCADD", 0x24000000, 0xFFF0FFFF⟩,
  ⟨"ACCSET", 0x25000000, 0xFFF00FFF⟩,
  ⟨"ACCLO", 0x26000000, 0xFF0FFFFF⟩,
  ⟨"ACCHI", 0x27000000, 0xFF0FFFFF⟩,
  ⟨"ACCNORM", 0x28000000, 0xFF0FFFFF⟩,
  ⟨"ACCPOP", 0x29000000, 0xFF0FFFFF⟩]

/-- BigInt arithmetic and multiply, 0x30 to 0x3F: match and mask (spec/opcode_table.json). -/
def maskRowsBig : List MaskRow := [
  ⟨"BADD", 0x30000000, 0xFF888FFF⟩,
  ⟨"BSUB", 0x31000000, 0xFF888FFF⟩,
  ⟨"BNEG", 0x32000000, 0xFF88FFFF⟩,
  ⟨"BMUL", 0x33000000, 0xFF888FFF⟩,
  ⟨"KMUL", 0x34000000, 0xFF888FFF⟩,
  ⟨"BDIV", 0x35000000, 0xFF888FFF⟩,
  ⟨"BREM", 0x36000000, 0xFF888FFF⟩,
  ⟨"BCMP", 0x37000000, 0xFF088FFF⟩,
  ⟨"BMOV", 0x38000000, 0xFF88FFFF⟩,
  ⟨"BFROMX", 0x39000000, 0xFF80FFFF⟩,
  ⟨"BLI", 0x3A000000, 0xFF8F0000⟩,
  ⟨"BLEN", 0x3B000000, 0xFF08FFFF⟩,
  ⟨"BLIMB", 0x3C000000, 0xFF080FFF⟩,
  ⟨"BSGN", 0x3D000000, 0xFF08FFFF⟩]

/-- Modular and Montgomery, 0x40 to 0x4F: match and mask (spec/opcode_table.json). -/
def maskRowsModular : List MaskRow := [
  ⟨"MMOD", 0x40000000, 0xFF888FFF⟩,
  ⟨"MADD", 0x41000000, 0xFF8888FF⟩,
  ⟨"MSUB", 0x42000000, 0xFF8888FF⟩,
  ⟨"MMUL", 0x43000000, 0xFF8888FF⟩,
  ⟨"MSQR", 0x44000000, 0xFF888FFF⟩,
  ⟨"MEXP", 0x45000000, 0xFF8888FF⟩,
  ⟨"MREDC", 0x48000000, 0xFF888FFF⟩,
  ⟨"MMONT", 0x49000000, 0xFF8888FF⟩,
  ⟨"MTOM", 0x4A000000, 0xFF888FFF⟩]

/-- Loads and stores, 0x50 to 0x5F: match and mask (spec/opcode_table.json). -/
def maskRowsMemory : List MaskRow := [
  ⟨"LD", 0x50000000, 0xFF000000⟩,
  ⟨"SD", 0x51000000, 0xFF000000⟩,
  ⟨"BLD", 0x52000000, 0xFF800000⟩,
  ⟨"BST", 0x53000000, 0xFF800000⟩]

/-- The match and mask of every row of spec/opcode_table.json. -/
def maskTable : List MaskRow :=
  maskRowsControl ++ maskRowsAlu ++ maskRowsMac ++ maskRowsBig ++ maskRowsModular ++ maskRowsMemory

end Sys2Proof
end

