-- ==== Sys2Proof/Machine/State.lean ====
section
/-! DEFINITION. The state of the machine (10_state.md R30, listed in INVENTORY.md), the reasons a step can stop, and the
state after power-on reset (70_reset_and_hazards.md R401). -/

namespace Sys2Proof.Machine

/-- The model's own faults: there is none, so nobody raises one. Every error of MMK-1 is an error stop, which is a next
state (60_exceptions.md R365), and the spec leaves no behaviour without an effect (log 24, safe). -/
inductive Fault where
deriving DecidableEq, Repr

/-- The model's refusals. -/
inductive Refusal where
  /-- An instruction without a meaning: raised only by an arm of `exec` that rejects it by name. No arm does. Safe. -/
  | notModelled (mnemonic : String)
deriving DecidableEq, Repr

/-- A memory: the bytes something has written, as (address, byte) pairs with addresses strictly rising. A byte that is
not listed has no value in the list; what the machine reads there is the power-on draw (log 3, log 4). -/
abbrev Memory := List Host.Cell

/-- A host access to the bus (60_exceptions.md R375): a bus address, a width in bits and, for a write, the data. -/
inductive BusOp where
  | read (addr width : Nat)
  | write (addr width : Nat) (data : Word)
deriving DecidableEq, Repr

/-- Who moves in one step (log 6): the kernel, the host with one access, or the platform with a power-on reset. -/
inductive Turn where
  | kernel
  | bus (op : BusOp)
  | powerOn
deriving DecidableEq, Repr

/-- The machine. The last four fields are the model's own, not the spec's (log 6, 8, 9, 17). -/
structure State where
  /-- The implementation parameters (00_scope.md R7 to R9); no step changes them (log 1). -/
  params : Params
  /-- x0 to x15 (10_state.md R31); x0 is read and written through `readX` and `writeX` only (R32). -/
  x : Vector Word 16
  /-- b0 to b7 as the integers they denote (10_state.md R36, 00_scope.md R13). -/
  b : Vector Int 8
  /-- ACC (10_state.md R34). -/
  acc : Acc
  /-- C, FLAGS bit 0 (10_state.md R35). -/
  c : Bool
  /-- pc, an IMEM word index (10_state.md R39). -/
  pc : Index
  /-- STATUS.RUN (10_state.md R43). -/
  run : Bool
  /-- STATUS.DONE (10_state.md R43). -/
  done : Bool
  /-- STATUS.ERR (10_state.md R43). -/
  err : Bool
  /-- STATUS.IE (10_state.md R43). -/
  ie : Bool
  /-- CAUSE bits 7:0 (10_state.md R44). -/
  cause : BitVec 8
  /-- EPC bits 31:0 (10_state.md R45). -/
  epc : Index
  /-- EINFO (10_state.md R46). -/
  einfo : Word
  /-- KTHRESH bits 15:0 (10_state.md R48). -/
  kthresh : BitVec 16
  /-- START_PC bits 31:0 (10_state.md R52). -/
  startPc : Index
  /-- IMEM (20_memory.md R81): word i is bytes 4i to 4i+3 of the list (log 5). -/
  imem : Memory
  /-- DMEM (20_memory.md R83). -/
  dmem : Memory
  /-- Model: how many power-on resets have happened (log 17). -/
  powerOns : Nat
  /-- Model: how many soft resets have happened (log 8). -/
  softResets : Nat
  /-- Model: who moves in the next steps; the kernel when the list is empty (log 6). -/
  turns : List Turn
  /-- Model: what the latest host read returned (log 9). -/
  hostRead : Word
deriving DecidableEq, Repr

/-- The reset value of KTHRESH: 10 (10_state.md R48, 70_reset_and_hazards.md R401). -/
def kthreshReset : BitVec 16 := 10

/-- The state after power-on reset of a block with these parameters (70_reset_and_hazards.md R401). -/
def State.resetOf (p : Params) : State where
  params := p
  x := Vector.replicate 16 0
  b := Vector.replicate 8 0
  acc := 0
  c := false
  pc := 0
  run := false
  done := false
  err := false
  ie := false
  cause := 0
  epc := 0
  einfo := 0
  kthresh := kthreshReset
  startPc := 0
  imem := []
  dmem := []
  powerOns := 0
  softResets := 0
  turns := []
  hostRead := 0

/-- The machine right after power-on reset, with the spec's default parameters (00_scope.md R7, R8; BASE: log 2). -/
def State.reset : State := State.resetOf Params.default

end Sys2Proof.Machine
end

