-- ==== Sys2Proof/Machine/BigNum.lean ====
section
/-! DEFINITION. The integer arithmetic of the big registers: limbs and length (00_scope.md R13), truncating division and
mathMod (R14), modular powers (43_modular.md R248), the Karatsuba decomposition (42_multiply.md R224) and the Montgomery
radix and its inverse (44_montgomery.md R270). -/

namespace Sys2Proof.Machine

/-- Count the limbs of a magnitude, with fuel: one limb below 10^9, else one more than the rest. -/
def limbCount : Nat → Nat → Nat
  | 0, _ => 1
  | fuel + 1, n => if n < limbBase then 1 else limbCount fuel (n / limbBase) + 1

/-- R13: `len(v)`, the number of limbs of the canonical form. -/
def len (v : Int) : Nat := limbCount v.natAbs v.natAbs

/-- R13: `limb(v, i)`, limb i of the magnitude. -/
def limb (v : Int) (i : Nat) : Nat := v.natAbs / limbBase ^ i % limbBase

/-- R13, R192: limb i as BLIMB reads it, for any index: 0 at or beyond `len(v)`, where no power need be formed. -/
def limbAt (v : Int) (i : Nat) : Nat := if i < len v then limb v i else 0

/-- R13: the limbs of the canonical form, least significant first. -/
def limbs (v : Int) : List Nat := (List.range (len v)).map (limb v)

/-- R90: the number whose limbs are these, least significant first. -/
def ofLimbs : List Nat → Nat
  | [] => 0
  | l :: ls => l + limbBase * ofLimbs ls

/-- R14: `tdiv(a, b)`, the quotient truncated toward zero. -/
def tdiv (a b : Int) : Int := a.sign * b.sign * ((a.natAbs / b.natAbs : Nat) : Int)

/-- R14: `trem(a, b)`. -/
def trem (a b : Int) : Int := a - b * tdiv a b

/-- R14: `mathMod(a, m)`. -/
def mathMod (a m : Int) : Int := if trem a m < 0 then trem a m + m else trem a m

/-- R248: `pow(a, n, m)` by repeated squaring, with fuel for the halvings of the exponent. -/
def powMod (a m : Int) : Nat → Nat → Int
  | 0, _ => 1
  | fuel + 1, n =>
    if n = 0 then 1
    else if n = 1 then mathMod a m
    else if n = 2 then mathMod (a * a) m
    else
      let h := powMod a m fuel (n / 2)
      let sq := mathMod (h * h) m
      if n % 2 = 1 then mathMod (sq * a) m else sq

/-- R247: the value MEXP gives for a modulus m >= 1 and an exponent n >= 0. The halvings of n need at most n steps. -/
def expMod (a : Int) (n : Nat) (m : Int) : Int := powMod a m n n

/-- R226: the threshold heuristic, `split(la, lb, T)`. -/
def karaSplits (t la lb : Nat) : Bool := t ≤ la + lb

/-- R226: the split position, `floor(max(la, lb) / 2)`. -/
def karaSplitAt (la lb : Nat) : Nat := max la lb / 2

/-- R224: `kara(a, b, T)`, with fuel for the recursion; none means that the fuel ran out. -/
def kara (t : Nat) : Nat → Nat → Nat → Option Nat
  | 0, _, _ => none
  | fuel + 1, a, b =>
    let la := len a
    let lb := len b
    if !karaSplits t la lb then some (a * b)
    else
      let h := karaSplitAt la lb
      let p := limbBase ^ h
      let a1 := a / p
      let a0 := a % p
      let b1 := b / p
      let b0 := b % p
      match kara t fuel a0 b0, kara t fuel a1 b1, kara t fuel (a0 + a1) (b0 + b1) with
      | some z0, some z2, some zm => some (z2 * p ^ 2 + (zm - z0 - z2) * p + z0)
      | _, _, _ => none

/-- R224, R227: the Karatsuba product of two integers, the sign attached afterwards. The recursion ends within
max(|a|, |b|) + 1 levels for every threshold of 3 or more (R227); where it would not end, the product is direct. -/
def karatsuba (t : Nat) (a b : Int) : Int :=
  a.sign * b.sign * ((kara t (max a.natAbs b.natAbs + 1) a.natAbs b.natAbs).getD (a.natAbs * b.natAbs) : Nat)

/-- R270: the Montgomery radix of a modulus, `R = 10^(9·len(m))`. -/
def montR (m : Int) : Int := (limbBase : Int) ^ len m

/-- The inverse of 10 modulo an m coprime to 10: (1 + j·m) / 10 for the digit j that makes the sum a multiple of 10. -/
def tenInverse (m : Nat) : Nat :=
  let j := if m % 10 = 1 then 9 else if m % 10 = 3 then 3 else if m % 10 = 7 then 7 else 1
  (1 + j * m) / 10

/-- R270: `Rinv`, the r in [0, m) with `R · r ≡ 1 (mod m)`, for an m coprime to 10. -/
def montRinv (m : Int) : Int := expMod (tenInverse m.natAbs : Nat) (9 * len m) m

end Sys2Proof.Machine
end

