-- ==== Sys2Proof/Machine/Flags.lean ====
section
/-! DEFINITION. The one flag C (10_state.md R35, R47) and the accumulator arithmetic that computes it (40_limb_mac.md
R154, R155), and the STATUS word (10_state.md R43). -/

namespace Sys2Proof.Machine

/-- R154, R155: the carry out of bit 127 of an exact sum. -/
def carryOut128 (t : Nat) : Bool := 2 ^ 128 ≤ t

/-- R154, R155: an exact sum modulo 2^128. -/
def wrap128 (t : Nat) : Acc := BitVec.ofNat 128 t

/-- R47: the FLAGS register, C in bit 0 and the other bits 0. -/
def flagsWord (c : Bool) : Word := BitVec.ofNat 64 c.toNat

/-- R47, R313: what a write of FLAGS keeps, bit 0 of the value. -/
def flagsBit (v : Word) : Bool := v.toNat % 2 = 1

/-- R43: the STATUS register, RUN, DONE, ERR and IE in bits 0 to 3. -/
def statusWord (s : State) : Word :=
  BitVec.ofNat 64 (s.run.toNat + 2 * s.done.toNat + 4 * s.err.toNat + 8 * s.ie.toNat)

/-- R43: what a host write of STATUS keeps, bit 3 of the value. -/
def statusIe (v : Word) : Bool := v.toNat / 8 % 2 = 1

/-- R368: the interrupt output. -/
def irq (s : State) : Bool := s.ie && (s.done || s.err)

end Sys2Proof.Machine
end

