-- ==== Sys2Proof/Machine/Memory.lean ====
section
/-! DEFINITION. Memory as a canonical list of written bytes (log 4), little-endian groups of bytes (20_memory.md R84),
and the two memories of the machine: DMEM by 64-bit words (R84, R88), IMEM by 32-bit words (R81, R82). -/

namespace Sys2Proof.Machine

/-- The byte something has written at an address, if any. -/
def Memory.lookup : Memory → Nat → Option Byte
  | [], _ => none
  | (k, v) :: m, a => if k = a then some v else Memory.lookup m a

/-- Write one byte, keeping the addresses strictly rising. -/
def Memory.store : Memory → Nat → Byte → Memory
  | [], a, v => [(a, v)]
  | (k, u) :: m, a, v =>
    if a < k then (a, v) :: (k, u) :: m
    else if a = k then (a, v) :: m
    else (k, u) :: Memory.store m a v

/-- Are all addresses of the list at least `lo`, and strictly rising? -/
def Memory.risingFrom : Nat → Memory → Bool
  | _, [] => true
  | lo, (k, _) :: m => lo ≤ k && Memory.risingFrom (k + 1) m

/-- The canonical form: addresses strictly rising (an unlisted address has no value, so no entry equals it). -/
def Memory.wf (m : Memory) : Bool := Memory.risingFrom 0 m

/-- Does the list hold only addresses below a size? -/
def Memory.within (size : Nat) (m : Memory) : Bool := m.all fun cell => cell.1 < size

/-- R84: the number whose little-endian bytes are the `n` bytes from `a` on. -/
def loadLE (byte : Nat → Byte) (a : Nat) : Nat → Nat
  | 0 => 0
  | n + 1 => (byte a).toNat + 256 * loadLE byte (a + 1) n

/-- R84: write the `n` little-endian bytes of a number from `a` on. -/
def Memory.storeLE (m : Memory) (a : Nat) : Nat → Nat → Memory
  | 0, _ => m
  | n + 1, v => Memory.storeLE (m.store a (BitVec.ofNat 8 v)) (a + 1) n (v / 256)

/-- What a DMEM byte reads as: the byte written last, or the power-on draw (20_memory.md R83, R101; U1, log 3). -/
def dmemByte (s : State) (a : Nat) : Byte := (s.dmem.lookup a).getD (Config.powerOnDmem s.powerOns a)

/-- What a byte of IMEM reads as (20_memory.md R81, R101; U1, log 3, log 5). -/
def imemByte (s : State) (a : Nat) : Byte := (s.imem.lookup a).getD (Config.powerOnImem s.powerOns a)

/-- R84: `MemRead(a, 8)`. -/
def memRead (s : State) (a : Nat) : Word := BitVec.ofNat 64 (loadLE (dmemByte s) a 8)

/-- R84: `MemWrite(a, 8, v)`. -/
def memWrite (a : Nat) (v : Word) (s : State) : State := { s with dmem := s.dmem.storeLE a 8 v.toNat }

/-- R81, R82: `IMem(i)`, the word at an index. -/
def imemRead (s : State) (i : Nat) : InstrWord := BitVec.ofNat 32 (loadLE (imemByte s) (4 * i) 4)

/-- R103: store the word at an index (only the host does). -/
def imemWrite (i : Nat) (w : InstrWord) (s : State) : State := { s with imem := s.imem.storeLE (4 * i) 4 w.toNat }

/-- R88: is the 64-bit word at an address inside DMEM? -/
def dmemInRange (s : State) (a : Nat) : Bool := a + 8 ≤ s.params.dmemBytes

/-- R88: the address of the first of `n` words from `a` on that is out of range, if any. -/
def firstOutOfRange (s : State) (a : Nat) : Nat → Option Nat
  | 0 => none
  | n + 1 => if dmemInRange s a then firstOutOfRange s (a + 8) n else some a

/-- R90: the `n` words from `a` on, lowest address first. -/
def memReadWords (s : State) (a : Nat) : Nat → List Word
  | 0 => []
  | n + 1 => memRead s a :: memReadWords s (a + 8) n

/-- R90: write words from `a` on, lowest address first. -/
def memWriteWords (a : Nat) : List Word → State → State
  | [], s => s
  | v :: vs, s => memWriteWords (a + 8) vs (memWrite a v s)

end Sys2Proof.Machine
end

