-- ==== Sys2Proof/Machine/Operands.lean ====
section
/-! DEFINITION. The operand forms: extensions of immediates (00_scope.md R11, 30_encoding.md R117), the signed reading of
a register (R11), effective addresses (20_memory.md R86) and control targets (46_scalar_control.md R327). -/

namespace Sys2Proof.Machine

/-- R11, R117: `sext_64` of a 16-bit immediate (kind s16). -/
def sext64 (f : BitVec 16) : Word := f.signExtend 64

/-- R11, R117: `zext_64` of a 16-bit immediate (kind z16). -/
def zext64 (f : BitVec 16) : Word := f.setWidth 64

/-- R11: `s64(w)`, the two's-complement reading. -/
def s64 (w : Word) : Int := w.toInt

/-- R11: `u64(v)` of an integer. -/
def u64 (v : Int) : Word := BitVec.ofInt 64 v

/-- An index as a 64-bit value (`zext_64(pc)`, R363, R375). -/
def zextIndex (i : Index) : Word := i.setWidth 64

/-- R11: `u32` of a 64-bit value. -/
def low32 (v : Word) : Index := v.setWidth 32

/-- R319, R320: the shift amount of SLL and SRL, bits 5:0 of a register. -/
def shiftAmount (v : Word) : Nat := v.toNat % 64

/-- R319, R324: `u64(v · 2^n)`. -/
def shiftLeft (v : Word) (n : Nat) : Word := BitVec.ofNat 64 (v.toNat * 2 ^ n)

/-- R320, R325: `floor(v / 2^n)`. -/
def shiftRight (v : Word) (n : Nat) : Word := BitVec.ofNat 64 (v.toNat / 2 ^ n)

/-- R321: 1 if the comparison holds, else 0. -/
def boolWord (c : Bool) : Word := if c then 1 else 0

/-- R86: `EA = u64(x[B] + sext_64(imm16))`. -/
def effectiveAddress (base : Word) (s16 : BitVec 16) : Word := base + sext64 s16

/-- R330 to R335: `u32(pc + sext(imm16))`, the target of a taken branch. -/
def branchTarget (pc : Index) (off16 : BitVec 16) : Index := pc + off16.signExtend 32

/-- R328: `u32(pc + sext(imm20))`, the target of JAL. -/
def jumpTarget (pc : Index) (off20 : BitVec 20) : Index := pc + off20.signExtend 32

/-- R329: `u32(x[s] + sext_64(imm16))`, the target of JALR. -/
def jumpRegisterTarget (base : Word) (s16 : BitVec 16) : Index := low32 (base + sext64 s16)

/-- R328, R329: the link value, `u32(pc + 1)`. -/
def linkValue (pc : Index) : Word := zextIndex (pc + 1)

/-- R187: the result of a three-way comparison, -1, 0 or 1 as a 64-bit value. -/
def compareWord (a b : Int) : Word := if a < b then u64 (-1) else if a = b then 0 else 1

end Sys2Proof.Machine
end

