-- ==== Sys2Proof/Machine/Ops.lean ====
section
/-! DEFINITION. The operations over registers and memory that the meanings share: register reads and writes
(00_scope.md R12), the error entry and the restart after it (60_exceptions.md R365, R378, R379), the CSRs (10_state.md
R41 to R53), and the BigInt image (20_memory.md R90). -/

namespace Sys2Proof.Machine

/-- What a step answers. -/
abbrev Result := Host.Outcome State Fault Refusal

/-! ### Registers -/

/-- R12, R32: `x[i]`; x0 reads 0. -/
def readX (s : State) (i : XReg) : Word := if i = 0 then 0 else s.x[i]

/-- R12, R32: `x[i] <- v`; a write to x0 is discarded. -/
def writeX (i : XReg) (v : Word) (s : State) : State :=
  { s with x := if i = 0 then s.x else s.x.set i.val v i.isLt }

/-- R12: `b[j]`. -/
def readB (s : State) (j : BReg) : Int := s.b[j]

/-- Store a value in a big register; `writeBig` checks it first. -/
def setB (j : BReg) (v : Int) (s : State) : State := { s with b := s.b.set j.val v j.isLt }

/-- Replace ACC. -/
def setAcc (v : Acc) (s : State) : State := { s with acc := v }

/-- Replace C. -/
def setC (c : Bool) (s : State) : State := { s with c := c }

/-- R12: `pc <- t`. -/
def setPc (t : Index) (s : State) : State := { s with pc := t }

/-- R39: `pc <- pc + 1`, modulo 2^32. -/
def retire (s : State) : State := { s with pc := s.pc + 1 }

/-! ### Errors -/

/-- The causes of R361. -/
inductive ErrorCause where
  | illegalInstruction
  | fetchFault
  | misalignedAccess
  | accessFault
  | divisionByZero
  | domainError
  | formatError
  | capacityError
deriving DecidableEq, Repr

/-- The cause codes of R361. -/
def ErrorCause.code : ErrorCause → BitVec 8
  | .illegalInstruction => 1
  | .fetchFault => 2
  | .misalignedAccess => 3
  | .accessFault => 4
  | .divisionByZero => 5
  | .domainError => 6
  | .formatError => 7
  | .capacityError => 8

/-- `E(info)` of R16: a cause and its EINFO value (R363). -/
structure Error where
  cause : ErrorCause
  info : Word
deriving DecidableEq, Repr

/-- R365, the error entry: the one way the machine takes an exception. Nothing else changes, pc included. -/
def errorEntry (e : Error) (s : State) : State :=
  { s with run := false, err := true, done := false, cause := e.cause.code, epc := s.pc, einfo := e.info }

/-- R16: `raise E(info)`: the instruction has no effect besides the error entry. -/
def raise (e : Error) (s : State) : Result := .next (errorEntry e s)

/-- R363: IllegalInstruction of an instruction word. -/
def illegalWord (w : InstrWord) : Error := ⟨.illegalInstruction, w.setWidth 64⟩

/-- R378: what GO does when the kernel is idle. This is how the host restarts after an error stop: there is no other
return from one (R367). -/
def go (s : State) : State :=
  { s with pc := s.startPc, run := true, done := false, err := false, cause := 0, epc := 0, einfo := 0 }

/-- R379: what CLR does when the kernel is idle, the acknowledgement of the end of a run. -/
def clr (s : State) : State := { s with done := false, err := false, cause := 0, epc := 0, einfo := 0 }

/-- R310, R382: the normal end of a run; pc keeps the index of the HALT. -/
def endRun (s : State) : State := { s with run := false, done := true }

/-! ### Shared shapes of an instruction's end -/

/-- Write a scalar register and advance. -/
def writeXNext (d : XReg) (v : Word) (s : State) : Result := .next (retire (writeX d v s))

/-- R12, R36, R180: `b[d] <- v` and advance, or CapacityError when the value has more than LMAX limbs. -/
def writeBig (d : BReg) (v : Int) (s : State) : Result :=
  if s.params.lmax < len v then raise ⟨.capacityError, BitVec.ofNat 64 (len v)⟩ s
  else .next (retire (setB d v s))

/-- R330 to R335: go to the target if the branch is taken, else to the next instruction. -/
def branch (taken : Bool) (off16 : BitVec 16) (s : State) : Result :=
  .next (setPc (if taken then branchTarget s.pc off16 else s.pc + 1) s)

/-- R184, R185: the check of a divisor. -/
def divisorError (m : Int) : Option Error := if m = 0 then some ⟨.divisionByZero, 0⟩ else none

/-- R240: the check of a modulus. -/
def modulusError (m : Int) : Option Error :=
  if m = 0 then some ⟨.divisionByZero, 0⟩ else if m < 0 then some ⟨.domainError, 2⟩ else none

/-- R247: the checks of MEXP, modulus before exponent (R364). -/
def exponentError (n m : Int) : Option Error :=
  match modulusError m with
  | some e => some e
  | none => if n < 0 then some ⟨.domainError, 1⟩ else none

/-- R270: the check of a Montgomery modulus. -/
def montgomeryError (m : Int) : Option Error :=
  match modulusError m with
  | some e => some e
  | none => if Int.gcd m 10 ≠ 1 then some ⟨.domainError, 3⟩ else none

/-- Raise the first failing check, or else write a big register. The value is computed only when no check fails. -/
def writeBigUnless (check : Option Error) (d : BReg) (v : Unit → Int) (s : State) : Result :=
  match check with
  | some e => raise e s
  | none => writeBig d (v ()) s

/-! ### CSRs -/

/-- R42: the ID register. -/
def idWord : Word := 0x4D4D4B01

/-- R48, R313: what a write of KTHRESH stores, `min(max(v, 3), 65535)` of the whole 64-bit value. -/
def kthreshClamp (v : Word) : BitVec 16 := BitVec.ofNat 16 (min (max v.toNat 3) 65535)

/-- R41 to R53: the value of a CSR, or none for an unassigned number. -/
def csrRead (s : State) : Nat → Option Word
  | 0x000 => some idWord
  | 0x001 => some (statusWord s)
  | 0x002 => some (s.cause.setWidth 64)
  | 0x003 => some (zextIndex s.epc)
  | 0x004 => some s.einfo
  | 0x005 => some (flagsWord s.c)
  | 0x006 => some (s.kthresh.setWidth 64)
  | 0x007 => some (BitVec.ofNat 64 s.params.lmax)
  | 0x008 => some (BitVec.ofNat 64 s.params.imemWords)
  | 0x009 => some (BitVec.ofNat 64 s.params.dmemBytes)
  | 0x00A => some (zextIndex s.startPc)
  | _ => none

/-- R41, R313: a kernel write of a CSR, or none for a number that the kernel cannot write. -/
def csrWrite (s : State) (v : Word) : Nat → Option State
  | 0x005 => some { s with c := flagsBit v }
  | 0x006 => some { s with kthresh := kthreshClamp v }
  | _ => none

/-! ### Memory accesses of the kernel -/

/-- R87, R88, R292: the checks of a one-word access, alignment before range. -/
def wordError (s : State) (ea : Word) : Option Error :=
  if ea.toNat % 8 ≠ 0 then some ⟨.misalignedAccess, ea⟩
  else if !dmemInRange s ea.toNat then some ⟨.accessFault, ea⟩
  else none

/-- R90: the limb count in a header word, bits 31:0. -/
def headerCount (h : Word) : Nat := h.toNat % 2 ^ 32

/-- R90: the reserved bits 62:32 of a header word. -/
def headerReserved (h : Word) : Nat := h.toNat / 2 ^ 32 % 2 ^ 31

/-- R90: the sign in a header word, bit 63. -/
def headerNegative (h : Word) : Bool := 2 ^ 63 ≤ h.toNat

/-- R294: the address of the first limb word of 10^9 or more, if any. -/
def firstBadLimb (a : Nat) : List Word → Option Nat
  | [] => none
  | l :: ls => if limbBase ≤ l.toNat then some a else firstBadLimb (a + 8) ls

/-- R90: the value an image's sign and limb words denote. -/
def imageValue (negative : Bool) (ls : List Word) : Int :=
  let v : Int := (ofLimbs (ls.map BitVec.toNat) : Nat)
  if negative then -v else v

/-- R293, R294: the value of the image at an address, or the first failing check. -/
def loadImage (s : State) (ea : Word) : Except Error Int :=
  match wordError s ea with
  | some e => .error e
  | none =>
    let h := memRead s ea.toNat
    if headerReserved h ≠ 0 ∨ headerCount h = 0 then .error ⟨.formatError, ea⟩
    else if s.params.lmax < headerCount h then .error ⟨.capacityError, BitVec.ofNat 64 (headerCount h)⟩
    else
      match firstOutOfRange s (ea.toNat + 8) (headerCount h) with
      | some a => .error ⟨.accessFault, BitVec.ofNat 64 a⟩
      | none =>
        let ls := memReadWords s (ea.toNat + 8) (headerCount h)
        match firstBadLimb (ea.toNat + 8) ls with
        | some a => .error ⟨.formatError, BitVec.ofNat 64 a⟩
        | none => .ok (imageValue (headerNegative h) ls)

/-- R295: the header word of a value's canonical image. -/
def imageHeader (v : Int) : Word := BitVec.ofNat 64 ((if v < 0 then 2 ^ 63 else 0) + len v)

/-- R91, R295: the words of a value's canonical image, header first. -/
def imageWords (v : Int) : List Word := imageHeader v :: (limbs v).map (BitVec.ofNat 64)

/-- R295, R296: the checks of BST, alignment, then the range of every word, lowest first. -/
def imageError (s : State) (ea : Word) (v : Int) : Option Error :=
  if ea.toNat % 8 ≠ 0 then some ⟨.misalignedAccess, ea⟩
  else
    match firstOutOfRange s ea.toNat (len v + 1) with
    | some a => some ⟨.accessFault, BitVec.ofNat 64 a⟩
    | none => none

end Sys2Proof.Machine
end

