-- ==== Sys2Proof/Machine/BigInt.lean ====
section
/-! DEFINITION. BigInt arithmetic on big registers, 41_bigint.md R180 to R193. -/

namespace Sys2Proof.Machine

/-- BADD, R181: signed addition. -/
def execBadd (bd : BReg) (ba : BReg) (bb : BReg) (s : State) : Result :=
  writeBig bd (readB s ba + readB s bb) s

/-- BSUB, R182: signed subtraction. -/
def execBsub (bd : BReg) (ba : BReg) (bb : BReg) (s : State) : Result :=
  writeBig bd (readB s ba - readB s bb) s

/-- BNEG, R183: negation. -/
def execBneg (bd : BReg) (ba : BReg) (s : State) : Result :=
  writeBig bd (-readB s ba) s

/-- BDIV, R184: division truncating toward zero. -/
def execBdiv (bd : BReg) (ba : BReg) (bb : BReg) (s : State) : Result :=
  writeBigUnless (divisorError (readB s bb)) bd (fun _ => tdiv (readB s ba) (readB s bb)) s

/-- BREM, R185: the truncating remainder. -/
def execBrem (bd : BReg) (ba : BReg) (bb : BReg) (s : State) : Result :=
  writeBigUnless (divisorError (readB s bb)) bd (fun _ => trem (readB s ba) (readB s bb)) s

/-- BCMP, R187: three-way comparison. -/
def execBcmp (xd : XReg) (ba : BReg) (bb : BReg) (s : State) : Result :=
  writeXNext xd (compareWord (readB s ba) (readB s bb)) s

/-- BMOV, R188: copy. -/
def execBmov (bd : BReg) (ba : BReg) (s : State) : Result :=
  writeBig bd (readB s ba) s

/-- BFROMX, R189: construct from a signed 64-bit integer. -/
def execBfromx (bd : BReg) (xs : XReg) (s : State) : Result :=
  writeBig bd (s64 (readX s xs)) s

/-- BLI, R190: load a small signed constant. -/
def execBli (bd : BReg) (s16 : BitVec 16) (s : State) : Result :=
  writeBig bd (s64 (sext64 s16)) s

/-- BLEN, R191: limb count. -/
def execBlen (xd : XReg) (ba : BReg) (s : State) : Result :=
  writeXNext xd (BitVec.ofNat 64 (len (readB s ba))) s

/-- BLIMB, R192: one limb of the magnitude; 0 at or beyond the length. -/
def execBlimb (xd : XReg) (ba : BReg) (xs : XReg) (s : State) : Result :=
  writeXNext xd (BitVec.ofNat 64 (limbAt (readB s ba) (readX s xs).toNat)) s

/-- BSGN, R193: the sign, -1, 0 or 1. -/
def execBsgn (xd : XReg) (ba : BReg) (s : State) : Result :=
  writeXNext xd (u64 (readB s ba).sign) s

end Sys2Proof.Machine
end

