-- ==== Sys2Proof/Machine/Control.lean ====
section
/-! DEFINITION. Control transfer, 46_scalar_control.md R327 to R335: no delay slots; a target beyond IMEM faults at the next fetch. -/

namespace Sys2Proof.Machine

/-- JAL, R328: link and jump relative to the own pc. -/
def execJal (xd : XReg) (off20 : BitVec 20) (s : State) : Result :=
  .next (setPc (jumpTarget s.pc off20) (writeX xd (linkValue s.pc) s))

/-- JALR, R329: link and jump to a register; the register is read before the link is written. -/
def execJalr (xd : XReg) (xs : XReg) (s16 : BitVec 16) (s : State) : Result :=
  .next (setPc (jumpRegisterTarget (readX s xs) s16) (writeX xd (linkValue s.pc) s))

/-- BEQ, R330: branch if equal. -/
def execBeq (xa : XReg) (xb : XReg) (off16 : BitVec 16) (s : State) : Result :=
  branch (readX s xa = readX s xb) off16 s

/-- BNE, R331: branch if not equal. -/
def execBne (xa : XReg) (xb : XReg) (off16 : BitVec 16) (s : State) : Result :=
  branch (readX s xa ≠ readX s xb) off16 s

/-- BLT, R332: branch if less than, signed. -/
def execBlt (xa : XReg) (xb : XReg) (off16 : BitVec 16) (s : State) : Result :=
  branch (s64 (readX s xa) < s64 (readX s xb)) off16 s

/-- BGE, R333: branch if greater or equal, signed. -/
def execBge (xa : XReg) (xb : XReg) (off16 : BitVec 16) (s : State) : Result :=
  branch (s64 (readX s xb) ≤ s64 (readX s xa)) off16 s

/-- BLTU, R334: branch if less than, unsigned. -/
def execBltu (xa : XReg) (xb : XReg) (off16 : BitVec 16) (s : State) : Result :=
  branch ((readX s xa).toNat < (readX s xb).toNat) off16 s

/-- BGEU, R335: branch if greater or equal, unsigned. -/
def execBgeu (xa : XReg) (xb : XReg) (off16 : BitVec 16) (s : State) : Result :=
  branch ((readX s xb).toNat ≤ (readX s xa).toNat) off16 s

end Sys2Proof.Machine
end

