-- ==== Sys2Proof/Machine/LimbMac.lean ====
section
/-! DEFINITION. The 64 x 64 multiply and the 128-bit accumulator, 40_limb_mac.md R150 to R160. Operands are unsigned; no errors. -/

namespace Sys2Proof.Machine

/-- MULLO, R151: the low half of the 64 x 64 product. -/
def execMullo (xd : XReg) (xa : XReg) (xb : XReg) (s : State) : Result :=
  writeXNext xd (BitVec.ofNat 64 ((readX s xa).toNat * (readX s xb).toNat)) s

/-- MULHU, R152: the high half of the unsigned 64 x 64 product. -/
def execMulhu (xd : XReg) (xa : XReg) (xb : XReg) (s : State) : Result :=
  writeXNext xd (BitVec.ofNat 64 ((readX s xa).toNat * (readX s xb).toNat / 2 ^ 64)) s

/-- MUL128, R153: the full product into ACC; C is cleared. -/
def execMul128 (xa : XReg) (xb : XReg) (s : State) : Result :=
  .next (retire (setC false (setAcc (wrap128 ((readX s xa).toNat * (readX s xb).toNat)) s)))

/-- MAC128, R154: add a product to ACC; C is the carry out of bit 127. -/
def execMac128 (xa : XReg) (xb : XReg) (s : State) : Result :=
  let t := s.acc.toNat + (readX s xa).toNat * (readX s xb).toNat
  .next (retire (setC (carryOut128 t) (setAcc (wrap128 t) s)))

/-- ACCADD, R155: add a register to ACC; C is the carry out of bit 127. -/
def execAccadd (xa : XReg) (s : State) : Result :=
  let t := s.acc.toNat + (readX s xa).toNat
  .next (retire (setC (carryOut128 t) (setAcc (wrap128 t) s)))

/-- ACCSET, R156: load ACC, xa the high half and xb the low half; C is cleared. -/
def execAccset (xa : XReg) (xb : XReg) (s : State) : Result :=
  .next (retire (setC false (setAcc (wrap128 ((readX s xa).toNat * 2 ^ 64 + (readX s xb).toNat)) s)))

/-- ACCLO, R157: the low half of ACC. -/
def execAcclo (xd : XReg) (s : State) : Result :=
  writeXNext xd (BitVec.ofNat 64 (s.acc.toNat % 2 ^ 64)) s

/-- ACCHI, R158: the high half of ACC. -/
def execAcchi (xd : XReg) (s : State) : Result :=
  writeXNext xd (BitVec.ofNat 64 (s.acc.toNat / 2 ^ 64)) s

/-- ACCNORM, R159: split one base-10^9 limb off ACC; also with xd = x0 (10_state.md R32). C is unchanged. -/
def execAccnorm (xd : XReg) (s : State) : Result :=
  writeXNext xd (BitVec.ofNat 64 (s.acc.toNat % limbBase)) (setAcc (wrap128 (s.acc.toNat / limbBase)) s)

/-- ACCPOP, R160: split one 64-bit word off ACC; also with xd = x0. C is unchanged. -/
def execAccpop (xd : XReg) (s : State) : Result :=
  writeXNext xd (BitVec.ofNat 64 (s.acc.toNat % 2 ^ 64)) (setAcc (wrap128 (s.acc.toNat / 2 ^ 64)) s)

end Sys2Proof.Machine
end

