-- ==== Sys2Proof/Machine/LoadStore.lean ====
section
/-! DEFINITION. Loads and stores, 45_loadstore.md R290 to R297. -/

namespace Sys2Proof.Machine

/-- LD, R290: load a 64-bit word; also with xd = x0 all checks are made (10_state.md R32). -/
def execLd (xd : XReg) (xs : XReg) (s16 : BitVec 16) (s : State) : Result :=
  let ea := effectiveAddress (readX s xs) s16
  match wordError s ea with
  | some e => raise e s
  | none => writeXNext xd (memRead s ea.toNat) s

/-- SD, R291: store a 64-bit word. -/
def execSd (xa : XReg) (xs : XReg) (s16 : BitVec 16) (s : State) : Result :=
  let ea := effectiveAddress (readX s xs) s16
  match wordError s ea with
  | some e => raise e s
  | none => .next (retire (memWrite ea.toNat (readX s xa) s))

/-- BLD, R293: load a BigInt image, normalised. -/
def execBld (bd : BReg) (xs : XReg) (s16 : BitVec 16) (s : State) : Result :=
  match loadImage s (effectiveAddress (readX s xs) s16) with
  | .error e => raise e s
  | .ok v => writeBig bd v s

/-- BST, R295: store a BigInt as a canonical image. -/
def execBst (ba : BReg) (xs : XReg) (s16 : BitVec 16) (s : State) : Result :=
  let ea := effectiveAddress (readX s xs) s16
  match imageError s ea (readB s ba) with
  | some e => raise e s
  | none => .next (retire (memWriteWords ea.toNat (imageWords (readB s ba)) s))

end Sys2Proof.Machine
end

