-- ==== Sys2Proof/Machine/Modular.lean ====
section
/-! DEFINITION. Modular arithmetic, 43_modular.md R240 to R250. -/

namespace Sys2Proof.Machine

/-- MMOD, R241: mathMod. -/
def execMmod (bd : BReg) (ba : BReg) (bm : BReg) (s : State) : Result :=
  writeBigUnless (modulusError (readB s bm)) bd (fun _ => mathMod (readB s ba) (readB s bm)) s

/-- MADD, R242: modular addition. -/
def execMadd (bd : BReg) (ba : BReg) (bb : BReg) (bm : BReg) (s : State) : Result :=
  writeBigUnless (modulusError (readB s bm)) bd (fun _ => mathMod (readB s ba + readB s bb) (readB s bm)) s

/-- MSUB, R243: modular subtraction. -/
def execMsub (bd : BReg) (ba : BReg) (bb : BReg) (bm : BReg) (s : State) : Result :=
  writeBigUnless (modulusError (readB s bm)) bd (fun _ => mathMod (readB s ba - readB s bb) (readB s bm)) s

/-- MMUL, R244: modular multiplication, both operands reduced first. -/
def execMmul (bd : BReg) (ba : BReg) (bb : BReg) (bm : BReg) (s : State) : Result :=
  writeBigUnless (modulusError (readB s bm)) bd (fun _ => mathMod (mathMod (readB s ba) (readB s bm) * mathMod (readB s bb) (readB s bm)) (readB s bm)) s

/-- MSQR, R245: modular squaring. -/
def execMsqr (bd : BReg) (ba : BReg) (bm : BReg) (s : State) : Result :=
  writeBigUnless (modulusError (readB s bm)) bd (fun _ => mathMod (readB s ba * readB s ba) (readB s bm)) s

/-- MEXP, R247: modular exponentiation; exponent 0 gives 1 for every modulus (R250). -/
def execMexp (bd : BReg) (ba : BReg) (bn : BReg) (bm : BReg) (s : State) : Result :=
  writeBigUnless (exponentError (readB s bn) (readB s bm)) bd (fun _ => expMod (readB s ba) (readB s bn).toNat (readB s bm)) s

end Sys2Proof.Machine
end

