-- ==== Sys2Proof/Machine/Montgomery.lean ====
section
/-! DEFINITION. Montgomery reduction, 44_montgomery.md R270 to R273. -/

namespace Sys2Proof.Machine

/-- MREDC, R271: Montgomery reduction. -/
def execMredc (bd : BReg) (bt : BReg) (bm : BReg) (s : State) : Result :=
  writeBigUnless (montgomeryError (readB s bm)) bd (fun _ => mathMod (readB s bt * montRinv (readB s bm)) (readB s bm)) s

/-- MMONT, R272: Montgomery multiplication. -/
def execMmont (bd : BReg) (ba : BReg) (bb : BReg) (bm : BReg) (s : State) : Result :=
  writeBigUnless (montgomeryError (readB s bm)) bd (fun _ => mathMod (readB s ba * readB s bb * montRinv (readB s bm)) (readB s bm)) s

/-- MTOM, R273: conversion into Montgomery form. -/
def execMtom (bd : BReg) (ba : BReg) (bm : BReg) (s : State) : Result :=
  writeBigUnless (montgomeryError (readB s bm)) bd (fun _ => mathMod (readB s ba * montR (readB s bm)) (readB s bm)) s

end Sys2Proof.Machine
end

