-- ==== Sys2Proof/Machine/Multiply.lean ====
section
/-! DEFINITION. The two multiplications, 42_multiply.md R220 to R229. -/

namespace Sys2Proof.Machine

/-- BMUL, R221: the schoolbook product, the exact product of the integers. -/
def execBmul (bd : BReg) (ba : BReg) (bb : BReg) (s : State) : Result :=
  writeBig bd (readB s ba * readB s bb) s

/-- KMUL, R223: the product by the Karatsuba decomposition at the threshold KTHRESH (R224, log 13). -/
def execKmul (bd : BReg) (ba : BReg) (bb : BReg) (s : State) : Result :=
  writeBig bd (karatsuba s.kthresh.toNat (readB s ba) (readB s bb)) s

end Sys2Proof.Machine
end

