-- ==== Sys2Proof/Machine/ScalarAlu.lean ====
section
/-! DEFINITION. The scalar ALU, 46_scalar_control.md R314 to R326. No flags and no errors. -/

namespace Sys2Proof.Machine

/-- ADD, R314: sum modulo 2^64. -/
def execAdd (xd : XReg) (xa : XReg) (xb : XReg) (s : State) : Result :=
  writeXNext xd (readX s xa + readX s xb) s

/-- SUB, R315: difference modulo 2^64. -/
def execSub (xd : XReg) (xa : XReg) (xb : XReg) (s : State) : Result :=
  writeXNext xd (readX s xa - readX s xb) s

/-- AND, R316: bitwise and. -/
def execAnd (xd : XReg) (xa : XReg) (xb : XReg) (s : State) : Result :=
  writeXNext xd (readX s xa &&& readX s xb) s

/-- OR, R317: bitwise or. -/
def execOr (xd : XReg) (xa : XReg) (xb : XReg) (s : State) : Result :=
  writeXNext xd (readX s xa ||| readX s xb) s

/-- XOR, R318: bitwise exclusive or. -/
def execXor (xd : XReg) (xa : XReg) (xb : XReg) (s : State) : Result :=
  writeXNext xd (readX s xa ^^^ readX s xb) s

/-- SLL, R319: shift left by bits 5:0 of xb. -/
def execSll (xd : XReg) (xa : XReg) (xb : XReg) (s : State) : Result :=
  writeXNext xd (shiftLeft (readX s xa) (shiftAmount (readX s xb))) s

/-- SRL, R320: logical shift right by bits 5:0 of xb. -/
def execSrl (xd : XReg) (xa : XReg) (xb : XReg) (s : State) : Result :=
  writeXNext xd (shiftRight (readX s xa) (shiftAmount (readX s xb))) s

/-- SLTU, R321: 1 if less than, unsigned, else 0. -/
def execSltu (xd : XReg) (xa : XReg) (xb : XReg) (s : State) : Result :=
  writeXNext xd (boolWord ((readX s xa).toNat < (readX s xb).toNat)) s

/-- ADDI, R322: sum with the sign-extended immediate. -/
def execAddi (xd : XReg) (xa : XReg) (s16 : BitVec 16) (s : State) : Result :=
  writeXNext xd (readX s xa + sext64 s16) s

/-- ORI, R323: bitwise or with the zero-extended immediate. -/
def execOri (xd : XReg) (xa : XReg) (z16 : BitVec 16) (s : State) : Result :=
  writeXNext xd (readX s xa ||| zext64 z16) s

/-- SLLI, R324: shift left by the immediate amount. -/
def execSlli (xd : XReg) (xa : XReg) (sh : Nat) (s : State) : Result :=
  writeXNext xd (shiftLeft (readX s xa) sh) s

/-- SRLI, R325: logical shift right by the immediate amount. -/
def execSrli (xd : XReg) (xa : XReg) (sh : Nat) (s : State) : Result :=
  writeXNext xd (shiftRight (readX s xa) sh) s

/-- ANDI, R326: bitwise and with the zero-extended immediate. -/
def execAndi (xd : XReg) (xa : XReg) (z16 : BitVec 16) (s : State) : Result :=
  writeXNext xd (readX s xa &&& zext64 z16) s

end Sys2Proof.Machine
end

