-- ==== Sys2Proof/Machine/System.lean ====
section
/-! DEFINITION. The system instructions, 46_scalar_control.md R310 to R313. -/

namespace Sys2Proof.Machine

/-- HALT, R310: the run ends normally; pc is not advanced. -/
def execHalt (s : State) : Result :=
  .next (endRun s)

/-- NOP, R311: only pc advances. -/
def execNop (s : State) : Result :=
  .next (retire s)

/-- CSRR, R312: read a CSR; an unassigned number raises IllegalInstruction of the instruction word (10_state.md R41, log 12). -/
def execCsrr (xd : XReg) (csr : Nat) (s : State) : Result :=
  match csrRead s csr with
  | some v => writeXNext xd v s
  | none => raise (illegalWord (encode (.csrr xd csr))) s

/-- CSRW, R313: write FLAGS or KTHRESH; any other number raises IllegalInstruction of the instruction word (log 12). -/
def execCsrw (xs : XReg) (csr : Nat) (s : State) : Result :=
  match csrWrite s (readX s xs) csr with
  | some t => .next (retire t)
  | none => raise (illegalWord (encode (.csrw xs csr))) s

end Sys2Proof.Machine
end

