-- ==== Sys2Proof/Machine/Dispatch.lean ====
section
/-! DEFINITION. One arm for each instruction (30_encoding.md R118): the meaning it has. -/

namespace Sys2Proof.Machine

/-- What an instruction does in a state. -/
def exec (i : Instr) (s : State) : Host.Outcome State Fault Refusal :=
  match i with
  | .halt => Sys2Proof.Machine.execHalt s
  | .nop => Sys2Proof.Machine.execNop s
  | .csrr xd csr => Sys2Proof.Machine.execCsrr xd csr s
  | .csrw xs csr => Sys2Proof.Machine.execCsrw xs csr s
  | .jal xd off20 => Sys2Proof.Machine.execJal xd off20 s
  | .jalr xd xs s16 => Sys2Proof.Machine.execJalr xd xs s16 s
  | .beq xa xb off16 => Sys2Proof.Machine.execBeq xa xb off16 s
  | .bne xa xb off16 => Sys2Proof.Machine.execBne xa xb off16 s
  | .blt xa xb off16 => Sys2Proof.Machine.execBlt xa xb off16 s
  | .bge xa xb off16 => Sys2Proof.Machine.execBge xa xb off16 s
  | .bltu xa xb off16 => Sys2Proof.Machine.execBltu xa xb off16 s
  | .bgeu xa xb off16 => Sys2Proof.Machine.execBgeu xa xb off16 s
  | .add xd xa xb => Sys2Proof.Machine.execAdd xd xa xb s
  | .sub xd xa xb => Sys2Proof.Machine.execSub xd xa xb s
  | .and xd xa xb => Sys2Proof.Machine.execAnd xd xa xb s
  | .or xd xa xb => Sys2Proof.Machine.execOr xd xa xb s
  | .xor xd xa xb => Sys2Proof.Machine.execXor xd xa xb s
  | .sll xd xa xb => Sys2Proof.Machine.execSll xd xa xb s
  | .srl xd xa xb => Sys2Proof.Machine.execSrl xd xa xb s
  | .sltu xd xa xb => Sys2Proof.Machine.execSltu xd xa xb s
  | .addi xd xa s16 => Sys2Proof.Machine.execAddi xd xa s16 s
  | .ori xd xa z16 => Sys2Proof.Machine.execOri xd xa z16 s
  | .slli xd xa sh => Sys2Proof.Machine.execSlli xd xa sh s
  | .srli xd xa sh => Sys2Proof.Machine.execSrli xd xa sh s
  | .andi xd xa z16 => Sys2Proof.Machine.execAndi xd xa z16 s
  | .mullo xd xa xb => Sys2Proof.Machine.execMullo xd xa xb s
  | .mulhu xd xa xb => Sys2Proof.Machine.execMulhu xd xa xb s
  | .mul128 xa xb => Sys2Proof.Machine.execMul128 xa xb s
  | .mac128 xa xb => Sys2Proof.Machine.execMac128 xa xb s
  | .accadd xa => Sys2Proof.Machine.execAccadd xa s
  | .accset xa xb => Sys2Proof.Machine.execAccset xa xb s
  | .acclo xd => Sys2Proof.Machine.execAcclo xd s
  | .acchi xd => Sys2Proof.Machine.execAcchi xd s
  | .accnorm xd => Sys2Proof.Machine.execAccnorm xd s
  | .accpop xd => Sys2Proof.Machine.execAccpop xd s
  | .badd bd ba bb => Sys2Proof.Machine.execBadd bd ba bb s
  | .bsub bd ba bb => Sys2Proof.Machine.execBsub bd ba bb s
  | .bneg bd ba => Sys2Proof.Machine.execBneg bd ba s
  | .bmul bd ba bb => Sys2Proof.Machine.execBmul bd ba bb s
  | .kmul bd ba bb => Sys2Proof.Machine.execKmul bd ba bb s
  | .bdiv bd ba bb => Sys2Proof.Machine.execBdiv bd ba bb s
  | .brem bd ba bb => Sys2Proof.Machine.execBrem bd ba bb s
  | .bcmp xd ba bb => Sys2Proof.Machine.execBcmp xd ba bb s
  | .bmov bd ba => Sys2Proof.Machine.execBmov bd ba s
  | .bfromx bd xs => Sys2Proof.Machine.execBfromx bd xs s
  | .bli bd s16 => Sys2Proof.Machine.execBli bd s16 s
  | .blen xd ba => Sys2Proof.Machine.execBlen xd ba s
  | .blimb xd ba xs => Sys2Proof.Machine.execBlimb xd ba xs s
  | .bsgn xd ba => Sys2Proof.Machine.execBsgn xd ba s
  | .mmod bd ba bm => Sys2Proof.Machine.execMmod bd ba bm s
  | .madd bd ba bb bm => Sys2Proof.Machine.execMadd bd ba bb bm s
  | .msub bd ba bb bm => Sys2Proof.Machine.execMsub bd ba bb bm s
  | .mmul bd ba bb bm => Sys2Proof.Machine.execMmul bd ba bb bm s
  | .msqr bd ba bm => Sys2Proof.Machine.execMsqr bd ba bm s
  | .mexp bd ba bn bm => Sys2Proof.Machine.execMexp bd ba bn bm s
  | .mredc bd bt bm => Sys2Proof.Machine.execMredc bd bt bm s
  | .mmont bd ba bb bm => Sys2Proof.Machine.execMmont bd ba bb bm s
  | .mtom bd ba bm => Sys2Proof.Machine.execMtom bd ba bm s
  | .ld xd xs s16 => Sys2Proof.Machine.execLd xd xs s16 s
  | .sd xa xs s16 => Sys2Proof.Machine.execSd xa xs s16 s
  | .bld bd xs s16 => Sys2Proof.Machine.execBld bd xs s16 s
  | .bst ba xs s16 => Sys2Proof.Machine.execBst ba xs s16 s

end Sys2Proof.Machine
end

