-- ==== Sys2Proof/Machine/Fetch.lean ====
section
/-! DEFINITION. One step of the kernel (00_scope.md R17, 60_exceptions.md R364): fetch, decode, execute. -/

namespace Sys2Proof.Machine

/-- R81, R82: the word at pc, or none when pc is not below IMEM_WORDS. -/
def fetch (s : State) : Option InstrWord :=
  if s.pc.toNat < s.params.imemWords then some (imemRead s s.pc.toNat) else none

/-- R361, R363: FetchFault of a pc. -/
def fetchError (pc : Index) : Error := ⟨.fetchFault, zextIndex pc⟩

/-- R17, R378: while RUN = 1 the kernel fetches, decodes and executes one instruction; while RUN = 0 it does nothing
(R381, log 7). -/
def kernelStep (s : State) : Result :=
  if s.run then
    match fetch s with
    | none => raise (fetchError s.pc) s
    | some w =>
      match decode w with
      | .illegal _ => raise (illegalWord w) s
      | .instr i => exec i s
  else .next s

/-- The instruction whose bits are `w`, every bit above `nbits` 0, as the word IMEM holds. -/
def tableWord (nbits w : Nat) : InstrWord := BitVec.ofNat 32 (w % 2 ^ nbits)

/-- Put a word where the kernel fetches next (log 11): an idle kernel is started as GO starts it (R378), the word is
stored at the pc, and the kernel moves next. -/
def placeInstruction (w : InstrWord) (s : State) : State :=
  let t := if s.run then s else go s
  { imemWrite t.pc.toNat w t with turns := [] }

end Sys2Proof.Machine
end

