-- ==== Sys2Proof/Machine/HostBus.lean ====
section
/-! DEFINITION. The host interface: the register map and windows (60_exceptions.md R375 to R379, 20_memory.md R102,
R103), the two resets (70_reset_and_hazards.md R400 to R402), and who moves in a step (log 6). -/

namespace Sys2Proof.Machine

/-- The registers of R375. -/
inductive HostReg where
  | ctrl | status | cause | epc | einfo | startPc | kthresh | id | lmax | imemw | dmemb | flags | pc
  | x (i : XReg)
  | accLo | accHi
deriving DecidableEq, Repr

/-- What an access inside the block reaches; `nothing` is RAZ/WI (R375, R102, R103). -/
inductive HostTarget where
  | reg (r : HostReg)
  | imemWord (i : Nat)
  | dmemWord (a : Nat)
  | nothing
deriving DecidableEq, Repr

/-- R9, R375: the offset of a bus address in the block's 2 MiB, or none for an address of some other unit (log 10). -/
def blockOffset (p : Params) (addr : Nat) : Option Nat :=
  if p.base ≤ addr ∧ addr < p.base + 0x200000 then some (addr - p.base) else none

/-- R375: the register at an offset. -/
def hostRegAt (off : Nat) : Option HostReg :=
  match off with
  | 0x0000 => some .ctrl
  | 0x0008 => some .status
  | 0x0010 => some .cause
  | 0x0018 => some .epc
  | 0x0020 => some .einfo
  | 0x0028 => some .startPc
  | 0x0030 => some .kthresh
  | 0x0038 => some .id
  | 0x0040 => some .lmax
  | 0x0048 => some .imemw
  | 0x0050 => some .dmemb
  | 0x0058 => some .flags
  | 0x0060 => some .pc
  | 0x0200 => some .accLo
  | 0x0208 => some .accHi
  | n => if 0x100 ≤ n ∧ n < 0x180 ∧ n % 8 = 0 then some (.x (Fin.ofNat 16 ((n - 0x100) / 8))) else none

/-- R375, R102, R103: what an access of a width in bits at an offset reaches. -/
def hostTarget (p : Params) (off width : Nat) : HostTarget :=
  if 0x10000 ≤ off ∧ off < 0x20000 then
    if width = 32 ∧ off % 4 = 0 ∧ (off - 0x10000) / 4 < p.imemWords then .imemWord ((off - 0x10000) / 4) else .nothing
  else if 0x100000 ≤ off ∧ off < 0x200000 then
    if width = 64 ∧ off % 8 = 0 ∧ off - 0x100000 + 8 ≤ p.dmemBytes then .dmemWord (off - 0x100000) else .nothing
  else if width = 64 ∧ off % 8 = 0 then
    match hostRegAt off with
    | some r => .reg r
    | none => .nothing
  else .nothing

/-- R375, R42 to R52: what the host reads in a register while the kernel is idle. -/
def hostRegValue (s : State) : HostReg → Word
  | .ctrl => 0
  | .status => statusWord s
  | .cause => s.cause.setWidth 64
  | .epc => zextIndex s.epc
  | .einfo => s.einfo
  | .startPc => zextIndex s.startPc
  | .kthresh => s.kthresh.setWidth 64
  | .id => idWord
  | .lmax => BitVec.ofNat 64 s.params.lmax
  | .imemw => BitVec.ofNat 64 s.params.imemWords
  | .dmemb => BitVec.ofNat 64 s.params.dmemBytes
  | .flags => flagsWord s.c
  | .pc => zextIndex s.pc
  | .x i => readX s i
  | .accLo => BitVec.ofNat 64 (s.acc.toNat % 2 ^ 64)
  | .accHi => BitVec.ofNat 64 (s.acc.toNat / 2 ^ 64)

/-- R376: the registers that read their value while RUN = 1. -/
def HostReg.readableInRun : HostReg → Bool
  | .status | .id | .lmax | .imemw | .dmemb => true
  | .ctrl | .cause | .epc | .einfo | .startPc | .kthresh | .flags | .pc | .x _ | .accLo | .accHi => false

/-- R375, R376: what a host read of an address returns, or none for an address of some other unit. -/
def busRead (s : State) (addr width : Nat) : Option Word :=
  match blockOffset s.params addr with
  | none => none
  | some off =>
    match hostTarget s.params off width with
    | .nothing => some 0
    | .reg r => some (if s.run && !r.readableInRun then 0 else hostRegValue s r)
    | .imemWord i => some (if s.run then 0 else (imemRead s i).setWidth 64)
    | .dmemWord a => some (if s.run then 0 else memRead s a)

/-- R401: power-on reset. The memories get fresh power-on contents (log 17). -/
def powerOnReset (s : State) : State :=
  { State.resetOf s.params with
    powerOns := s.powerOns + 1, softResets := s.softResets, turns := s.turns, hostRead := s.hostRead }

/-- R402: the state whose memories a soft reset keeps: during a run the instruction in progress completes or has no
effect, which is a free choice (U2, log 8). -/
def softResetKeeps (s : State) : State :=
  if s.run && Config.softResetCompletes s.softResets then
    match kernelStep s with
    | .next t => t
    | .fault _ => s
    | .refused _ => s
  else s

/-- R402: soft reset, as power-on reset but IMEM and DMEM keep their contents. -/
def softReset (s : State) : State :=
  { State.resetOf s.params with
    imem := (softResetKeeps s).imem, dmem := (softResetKeeps s).dmem,
    powerOns := s.powerOns, softResets := s.softResets + 1, turns := s.turns, hostRead := s.hostRead }

/-- Bit n of a value the host writes. -/
def dataBit (v : Word) (n : Nat) : Bool := v.toNat / 2 ^ n % 2 = 1

/-- R377: a write of CTRL: SRESET (bit 1) alone if it is set, else CLR (bit 2) and then GO (bit 0), each only while the
kernel is idle. -/
def ctrlWrite (v : Word) (s : State) : State :=
  if dataBit v 1 then softReset s
  else
    let t := if dataBit v 2 && !s.run then clr s else s
    if dataBit v 0 && !t.run then go t else t

/-- R375: what a host write of a register does while the kernel is idle. -/
def hostRegWrite (r : HostReg) (v : Word) (s : State) : State :=
  match r with
  | .ctrl => ctrlWrite v s
  | .status => { s with ie := statusIe v }
  | .startPc => { s with startPc := low32 v }
  | .kthresh => { s with kthresh := kthreshClamp v }
  | .flags => { s with c := flagsBit v }
  | .x i => writeX i v s
  | .accLo => setAcc (wrap128 (s.acc.toNat / 2 ^ 64 * 2 ^ 64 + v.toNat)) s
  | .accHi => setAcc (wrap128 (v.toNat * 2 ^ 64 + s.acc.toNat % 2 ^ 64)) s
  | .cause | .epc | .einfo | .id | .lmax | .imemw | .dmemb | .pc => s

/-- R376: the registers a write reaches while RUN = 1: CTRL (for SRESET) and STATUS (for IE). -/
def HostReg.writableInRun : HostReg → Bool
  | .ctrl | .status => true
  | .cause | .epc | .einfo | .startPc | .kthresh | .id | .lmax | .imemw | .dmemb | .flags | .pc | .x _
  | .accLo | .accHi => false

/-- R375, R376: what a host write of an address does. -/
def busWrite (addr width : Nat) (v : Word) (s : State) : State :=
  match blockOffset s.params addr with
  | none => s
  | some off =>
    match hostTarget s.params off width with
    | .nothing => s
    | .reg r => if s.run && !r.writableInRun then s else hostRegWrite r v s
    | .imemWord i => if s.run then s else imemWrite i (v.setWidth 32) s
    | .dmemWord a => if s.run then s else memWrite a v s

/-- One host access; a read leaves what it returned in `hostRead` (log 9). -/
def busAccess (op : BusOp) (s : State) : State :=
  match op with
  | .read addr width =>
    match busRead s addr width with
    | some v => { s with hostRead := v }
    | none => s
  | .write addr width v => busWrite addr width v s

/-- One step: the first turn of the list is taken, or the kernel's when the list is empty (log 6). -/
def takeTurn (s : State) : Result :=
  match s.turns with
  | [] => kernelStep s
  | .kernel :: rest => kernelStep { s with turns := rest }
  | .bus op :: rest => .next (busAccess op { s with turns := rest })
  | .powerOn :: rest => .next (powerOnReset { s with turns := rest })

end Sys2Proof.Machine
end

