-- ==== Sys2Proof/Machine/Step.lean ====
section
/-! DEFINITION. The step of the machine, and where it fetches its next instruction. -/

namespace Sys2Proof.Machine

/-- One step (log 6, 00_scope.md R17). -/
def step (s : State) : Host.Outcome State Fault Refusal := takeTurn s

/-- The state with an instruction stored where `step` fetches next (log 11). -/
def State.withFetchWord (s : State) (nbits w : Nat) : State := placeInstruction (tableWord nbits w) s

end Sys2Proof.Machine
end

