-- ==== Sys2Proof/Machine/Assembler.lean ====
section
/-! DEFINITION. The assembler's side of the instruction set: the pseudo-instructions and their exact expansions
(30_encoding.md R136, R137), the offset of a label (R135), and the assembler text of an instruction (R118, R135). -/

namespace Sys2Proof.Machine

/-- The pseudo-instructions of R136. -/
inductive Pseudo where
  | mv (xd xs : XReg)
  | neg (xd xs : XReg)
  | not (xd xs : XReg)
  | j (off20 : BitVec 20)
  | call (off20 : BitVec 20)
  | ret
  | jr (xs : XReg)
  | beqz (xs : XReg) (off16 : BitVec 16)
  | bnez (xs : XReg) (off16 : BitVec 16)
  | bgt (xa xb : XReg) (off16 : BitVec 16)
  | ble (xa xb : XReg) (off16 : BitVec 16)
  | bgtu (xa xb : XReg) (off16 : BitVec 16)
  | bleu (xa xb : XReg) (off16 : BitVec 16)
  | accclr
  | bclr (bd : BReg)
  | li (xd : XReg) (v : Word)
deriving DecidableEq, Repr

/-- R137: the 16-bit chunk k of a constant, chunk 0 the lowest. -/
def liChunk (v : Word) (k : Nat) : BitVec 16 := BitVec.ofNat 16 (v.toNat / 2 ^ (16 * k))

/-- R137: the highest index of a nonzero chunk. -/
def liTop (v : Word) : Nat :=
  if liChunk v 3 ≠ 0 then 3 else if liChunk v 2 ≠ 0 then 2 else if liChunk v 1 ≠ 0 then 1 else 0

/-- R137: the shifts and ors that bring in the chunks below index k, highest first. -/
def liTail (xd : XReg) (v : Word) : Nat → List Instr
  | 0 => []
  | j + 1 => .slli xd xd 16 :: .ori xd xd (liChunk v j) :: liTail xd v j

/-- R137: the expansion of `LI xd, v`. -/
def expandLi (xd : XReg) (v : Word) : List Instr :=
  if -32768 ≤ v.toInt ∧ v.toInt ≤ 32767 then [.addi xd 0 (v.setWidth 16)]
  else .ori xd 0 (liChunk v (liTop v)) :: liTail xd v (liTop v)

/-- R136: the expansion of a pseudo-instruction. NOT needs xd different from xs. -/
def Pseudo.expand : Pseudo → List Instr
  | .mv xd xs => [.addi xd xs 0]
  | .neg xd xs => [.sub xd 0 xs]
  | .not xd xs => [.addi xd 0 (-1), .xor xd xs xd]
  | .j off20 => [.jal 0 off20]
  | .call off20 => [.jal 1 off20]
  | .ret => [.jalr 0 1 0]
  | .jr xs => [.jalr 0 xs 0]
  | .beqz xs off16 => [.beq xs 0 off16]
  | .bnez xs off16 => [.bne xs 0 off16]
  | .bgt xa xb off16 => [.blt xb xa off16]
  | .ble xa xb off16 => [.bge xb xa off16]
  | .bgtu xa xb off16 => [.bltu xb xa off16]
  | .bleu xa xb off16 => [.bgeu xb xa off16]
  | .accclr => [.accset 0 0]
  | .bclr bd => [.bli bd 0]
  | .li xd v => expandLi xd v

/-- R135: the encoded offset `t - p` of a label at index t for an instruction at index p, in a field of `width` bits;
none when the field cannot hold it. -/
def labelOffset (width t p : Nat) : Option (BitVec width) :=
  let d : Int := (t : Int) - p
  if -(2 ^ (width - 1)) ≤ d ∧ d < 2 ^ (width - 1) then some (BitVec.ofInt width d) else none

/-- R135: a scalar register's name. -/
def xText (i : XReg) : String := "x" ++ toString i.val

/-- R135: a big register's name. -/
def bText (j : BReg) : String := "b" ++ toString j.val

/-- R135, R53: a CSR's name, or its number. -/
def csrText : Nat → String
  | 0x000 => "ID"
  | 0x001 => "STATUS"
  | 0x002 => "CAUSE"
  | 0x003 => "EPC"
  | 0x004 => "EINFO"
  | 0x005 => "FLAGS"
  | 0x006 => "KTHRESH"
  | 0x007 => "LMAX"
  | 0x008 => "IMEMW"
  | 0x009 => "DMEMB"
  | 0x00A => "STARTPC"
  | n => toString n

/-- R135: the operands of a line, separated by commas. -/
def asmLine (mnemonic : String) (operands : List String) : String :=
  if operands.isEmpty then mnemonic else mnemonic ++ " " ++ String.intercalate ", " operands

/-- R135: a memory operand, `offset(xs)`. -/
def memText (s16 : BitVec 16) (xs : XReg) : String := toString s16.toInt ++ "(" ++ xText xs ++ ")"

/-- R118, R135: the operands of an instruction in assembler order. -/
def asmOperands : Instr → List String
  | .halt => []
  | .nop => []
  | .csrr xd csr => [xText xd, csrText csr]
  | .csrw xs csr => [csrText csr, xText xs]
  | .jal xd off20 => [xText xd, toString off20.toInt]
  | .jalr xd xs s16 => [xText xd, xText xs, toString s16.toInt]
  | .beq xa xb off16 => [xText xa, xText xb, toString off16.toInt]
  | .bne xa xb off16 => [xText xa, xText xb, toString off16.toInt]
  | .blt xa xb off16 => [xText xa, xText xb, toString off16.toInt]
  | .bge xa xb off16 => [xText xa, xText xb, toString off16.toInt]
  | .bltu xa xb off16 => [xText xa, xText xb, toString off16.toInt]
  | .bgeu xa xb off16 => [xText xa, xText xb, toString off16.toInt]
  | .add xd xa xb => [xText xd, xText xa, xText xb]
  | .sub xd xa xb => [xText xd, xText xa, xText xb]
  | .and xd xa xb => [xText xd, xText xa, xText xb]
  | .or xd xa xb => [xText xd, xText xa, xText xb]
  | .xor xd xa xb => [xText xd, xText xa, xText xb]
  | .sll xd xa xb => [xText xd, xText xa, xText xb]
  | .srl xd xa xb => [xText xd, xText xa, xText xb]
  | .sltu xd xa xb => [xText xd, xText xa, xText xb]
  | .addi xd xa s16 => [xText xd, xText xa, toString s16.toInt]
  | .ori xd xa z16 => [xText xd, xText xa, toString z16.toNat]
  | .slli xd xa sh => [xText xd, xText xa, toString sh]
  | .srli xd xa sh => [xText xd, xText xa, toString sh]
  | .andi xd xa z16 => [xText xd, xText xa, toString z16.toNat]
  | .mullo xd xa xb => [xText xd, xText xa, xText xb]
  | .mulhu xd xa xb => [xText xd, xText xa, xText xb]
  | .mul128 xa xb => [xText xa, xText xb]
  | .mac128 xa xb => [xText xa, xText xb]
  | .accadd xa => [xText xa]
  | .accset xa xb => [xText xa, xText xb]
  | .acclo xd => [xText xd]
  | .acchi xd => [xText xd]
  | .accnorm xd => [xText xd]
  | .accpop xd => [xText xd]
  | .badd bd ba bb => [bText bd, bText ba, bText bb]
  | .bsub bd ba bb => [bText bd, bText ba, bText bb]
  | .bneg bd ba => [bText bd, bText ba]
  | .bmul bd ba bb => [bText bd, bText ba, bText bb]
  | .kmul bd ba bb => [bText bd, bText ba, bText bb]
  | .bdiv bd ba bb => [bText bd, bText ba, bText bb]
  | .brem bd ba bb => [bText bd, bText ba, bText bb]
  | .bcmp xd ba bb => [xText xd, bText ba, bText bb]
  | .bmov bd ba => [bText bd, bText ba]
  | .bfromx bd xs => [bText bd, xText xs]
  | .bli bd s16 => [bText bd, toString s16.toInt]
  | .blen xd ba => [xText xd, bText ba]
  | .blimb xd ba xs => [xText xd, bText ba, xText xs]
  | .bsgn xd ba => [xText xd, bText ba]
  | .mmod bd ba bm => [bText bd, bText ba, bText bm]
  | .madd bd ba bb bm => [bText bd, bText ba, bText bb, bText bm]
  | .msub bd ba bb bm => [bText bd, bText ba, bText bb, bText bm]
  | .mmul bd ba bb bm => [bText bd, bText ba, bText bb, bText bm]
  | .msqr bd ba bm => [bText bd, bText ba, bText bm]
  | .mexp bd ba bn bm => [bText bd, bText ba, bText bn, bText bm]
  | .mredc bd bt bm => [bText bd, bText bt, bText bm]
  | .mmont bd ba bb bm => [bText bd, bText ba, bText bb, bText bm]
  | .mtom bd ba bm => [bText bd, bText ba, bText bm]
  | .ld xd xs s16 => [xText xd, memText s16 xs]
  | .sd xa xs s16 => [xText xa, memText s16 xs]
  | .bld bd xs s16 => [bText bd, memText s16 xs]
  | .bst ba xs s16 => [bText ba, memText s16 xs]

/-- R118, R135: the assembler text of an instruction. -/
def asmText (i : Instr) : String := asmLine i.mnemonic (asmOperands i)

end Sys2Proof.Machine
end

