-- ==== Sys2Proof/Safety.lean ====
section
/-! DEFINITION. The terms that claims about the machine are made in: what a state keeps of another, the results an
instruction can have, the error stop, and the invariant of the machine. They speak through the machine's own reads
(`readX`, `readB`, `dmemByte`, `imemRead`), never through how State holds a thing. -/

namespace Sys2Proof.Machine

/-! ### What is kept -/

/-- Every scalar register reads the same. -/
def KeepsX (s t : State) : Prop := ∀ k : XReg, readX t k = readX s k

/-- Every big register reads the same. -/
def KeepsB (s t : State) : Prop := ∀ j : BReg, readB t j = readB s j

/-- ACC and C are the same. -/
def KeepsAcc (s t : State) : Prop := t.acc = s.acc ∧ t.c = s.c

/-- Every byte of DMEM and every word of IMEM reads the same. -/
def KeepsMemory (s t : State) : Prop :=
  (∀ a, dmemByte t a = dmemByte s a) ∧ (∀ i, imemRead t i = imemRead s i)

/-- The parameters, the STATUS bits, the error registers, KTHRESH and START_PC are the same. -/
def KeepsControl (s t : State) : Prop :=
  t.params = s.params ∧ t.run = s.run ∧ t.done = s.done ∧ t.err = s.err ∧ t.ie = s.ie ∧ t.cause = s.cause ∧
  t.epc = s.epc ∧ t.einfo = s.einfo ∧ t.kthresh = s.kthresh ∧ t.startPc = s.startPc

/-- The model's own fields are the same. -/
def KeepsModel (s t : State) : Prop :=
  t.powerOns = s.powerOns ∧ t.softResets = s.softResets ∧ t.turns = s.turns ∧ t.hostRead = s.hostRead

/-! ### The results of an instruction -/

/-- `exec` answers a next state of which something holds. -/
def Completes (i : Instr) (s : State) (P : State → Prop) : Prop := ∃ t, exec i s = .next t ∧ P t

/-- A scalar register holds a value (x0 stays 0, 10_state.md R32), pc is one more, the rest is kept. -/
def ScalarResult (d : XReg) (v : Word) (s t : State) : Prop :=
  (∀ k : XReg, readX t k = if k = d ∧ k ≠ 0 then v else readX s k) ∧ t.pc = s.pc + 1 ∧
  KeepsB s t ∧ KeepsAcc s t ∧ KeepsMemory s t ∧ KeepsControl s t ∧ KeepsModel s t

/-- A big register holds a value, pc is one more, the rest is kept. -/
def BigResult (d : BReg) (v : Int) (s t : State) : Prop :=
  (∀ j : BReg, readB t j = if j = d then v else readB s j) ∧ t.pc = s.pc + 1 ∧
  KeepsX s t ∧ KeepsAcc s t ∧ KeepsMemory s t ∧ KeepsControl s t ∧ KeepsModel s t

/-- ACC and C hold values, pc is one more, the rest is kept. -/
def AccResult (acc : Nat) (c : Bool) (s t : State) : Prop :=
  t.acc.toNat = acc ∧ t.c = c ∧ t.pc = s.pc + 1 ∧
  KeepsX s t ∧ KeepsB s t ∧ KeepsMemory s t ∧ KeepsControl s t ∧ KeepsModel s t

/-- A scalar register and ACC hold values, C is kept, pc is one more, the rest is kept. -/
def ScalarAccResult (d : XReg) (v acc : Nat) (s t : State) : Prop :=
  (∀ k : XReg, readX t k = if k = d ∧ k ≠ 0 then BitVec.ofNat 64 v else readX s k) ∧ t.acc.toNat = acc ∧
  t.c = s.c ∧ t.pc = s.pc + 1 ∧ KeepsB s t ∧ KeepsMemory s t ∧ KeepsControl s t ∧ KeepsModel s t

/-- Only pc changes. -/
def PcResult (pc : Index) (s t : State) : Prop :=
  t.pc = pc ∧ KeepsX s t ∧ KeepsB s t ∧ KeepsAcc s t ∧ KeepsMemory s t ∧ KeepsControl s t ∧ KeepsModel s t

/-- A link register holds the return index, pc is the target, the rest is kept. -/
def LinkResult (d : XReg) (target : Index) (s t : State) : Prop :=
  (∀ k : XReg, readX t k = if k = d ∧ k ≠ 0 then BitVec.ofNat 64 ((s.pc.toNat + 1) % 2 ^ 32) else readX s k) ∧
  t.pc = target ∧ KeepsB s t ∧ KeepsAcc s t ∧ KeepsMemory s t ∧ KeepsControl s t ∧ KeepsModel s t

/-- Words are stored from an address on, every other byte of DMEM and all else but pc is kept. -/
def StoreResult (a : Nat) (words : List Word) (s t : State) : Prop :=
  (∀ k (h : k < words.length), memRead t (a + 8 * k) = words[k]) ∧
  (∀ a', (a' < a ∨ a + 8 * words.length ≤ a') → dmemByte t a' = dmemByte s a') ∧
  (∀ i, imemRead t i = imemRead s i) ∧ t.pc = s.pc + 1 ∧
  KeepsX s t ∧ KeepsB s t ∧ KeepsAcc s t ∧ KeepsControl s t ∧ KeepsModel s t

/-- The error stop of 60_exceptions.md R365: exactly the error entry, and the interrupt line at IE (R368). -/
def ErrorStop (e : Error) (s t : State) : Prop :=
  t.run = false ∧ t.err = true ∧ t.done = false ∧ t.cause = e.cause.code ∧ t.epc = s.pc ∧ t.einfo = e.info ∧
  t.pc = s.pc ∧ t.ie = s.ie ∧ t.params = s.params ∧ t.kthresh = s.kthresh ∧ t.startPc = s.startPc ∧
  irq t = s.ie ∧ KeepsX s t ∧ KeepsB s t ∧ KeepsAcc s t ∧ KeepsMemory s t ∧ KeepsModel s t

/-- An instruction takes the error stop. -/
def StopsWith (i : Instr) (s : State) (e : Error) : Prop := Completes i s (ErrorStop e s)

/-- A step in which the kernel moves takes the error stop, whether the list of turns is empty or says that the kernel
moves (log 6). -/
def KernelTurnStops (s : State) (e : Error) : Prop :=
  (s.turns = [] → ∃ t, step s = .next t ∧ ErrorStop e s t) ∧
  (∀ rest, s.turns = .kernel :: rest → ∃ t, step s = .next t ∧ ErrorStop e { s with turns := rest } t)

/-- 00_scope.md R12, 41_bigint.md R180: a big register gets the value if it has at most LMAX limbs, else the
instruction stops with CapacityError of the limb count. -/
def FitsOrStops (i : Instr) (d : BReg) (v : Int) (s : State) : Prop :=
  (len v ≤ s.params.lmax → Completes i s (BigResult d v s)) ∧
  (s.params.lmax < len v → StopsWith i s ⟨.capacityError, BitVec.ofNat 64 (len v)⟩)

/-- Instructions executed one after another, for the expansion of a pseudo-instruction (30_encoding.md R136). -/
def execAll : List Instr → State → Result
  | [], s => .next s
  | i :: is, s =>
    match exec i s with
    | .next t => execAll is t
    | .fault r => .fault r
    | .refused r => .refused r

/-! ### Words -/

/-- 30_encoding.md R111, R113: the number a format R word is. -/
def rWord (op a b c d : Nat) : Nat := op * 2 ^ 24 + a * 2 ^ 20 + b * 2 ^ 16 + c * 2 ^ 12 + d * 2 ^ 8

/-- 30_encoding.md R111, R114: the number a format I word is. -/
def iWord (op a b imm : Nat) : Nat := op * 2 ^ 24 + a * 2 ^ 20 + b * 2 ^ 16 + imm

/-- 30_encoding.md R111, R115: the number a format J word is. -/
def jWord (op a imm : Nat) : Nat := op * 2 ^ 24 + a * 2 ^ 20 + imm

/-- An instruction is encoded as a number, and the word of that number is decoded as the instruction. -/
def HasWord (i : Instr) (n : Nat) : Prop := (encode i).toNat = n ∧ decode (BitVec.ofNat 32 n) = .instr i

/-! ### The host interface -/

/-- 60_exceptions.md R375: the offset of every host register, with the number an idle host reads there. -/
def registerMap (s : State) : List (Nat × Nat) :=
  [(0x0000, 0),
   (0x0008, s.run.toNat + 2 * s.done.toNat + 4 * s.err.toNat + 8 * s.ie.toNat),
   (0x0010, s.cause.toNat),
   (0x0018, s.epc.toNat),
   (0x0020, s.einfo.toNat),
   (0x0028, s.startPc.toNat),
   (0x0030, s.kthresh.toNat),
   (0x0038, 0x4D4D4B01),
   (0x0040, s.params.lmax),
   (0x0048, s.params.imemWords),
   (0x0050, s.params.dmemBytes),
   (0x0058, s.c.toNat),
   (0x0060, s.pc.toNat),
   (0x0200, s.acc.toNat % 2 ^ 64),
   (0x0208, s.acc.toNat / 2 ^ 64)] ++
  (List.finRange 16).map fun k => (0x0100 + 8 * k.val, (readX s k).toNat)

/-! ### Invariant -/

/-- 10_state.md R36: every big register holds at most LMAX limbs. -/
def BigsFit (s : State) : Prop := ∀ j : BReg, len (readB s j) ≤ s.params.lmax

/-- What holds of the machine at reset and after every step. -/
structure Inv (s : State) : Prop where
  /-- 00_scope.md R7 to R9. -/
  legal : s.params.legal = true
  /-- 10_state.md R32: nothing is ever stored for x0. -/
  zero : s.x[0] = 0
  /-- 10_state.md R36. -/
  bigs : BigsFit s
  /-- 10_state.md R48. -/
  kthresh : 3 ≤ s.kthresh.toNat
  /-- 10_state.md R40: at most one of RUN, DONE and ERR is 1. -/
  oneStatus : s.run.toNat + s.done.toNat + s.err.toNat ≤ 1
  /-- 10_state.md R44 to R46: no error record without an error. -/
  noRecord : s.err = false → s.cause = 0 ∧ s.epc = 0 ∧ s.einfo = 0
  /-- 60_exceptions.md R361, R365: the record of an error names a cause of the table and the pc, which did not move. -/
  record : s.err = true → 1 ≤ s.cause.toNat ∧ s.cause.toNat ≤ 8 ∧ s.epc = s.pc
  /-- The memories keep their canonical form (log 4) and their sizes (20_memory.md R81, R83). -/
  imem : s.imem.wf = true ∧ s.imem.within (4 * s.params.imemWords) = true
  /-- The same for DMEM. -/
  dmem : s.dmem.wf = true ∧ s.dmem.within s.params.dmemBytes = true

/-! ### The causes an instruction can raise -/

/-- 60_exceptions.md R362, beyond IllegalInstruction of decode and FetchFault. -/
def causesOf : Instr → List ErrorCause
  | .csrr _ _ | .csrw _ _ => [.illegalInstruction]
  | .ld _ _ _ | .sd _ _ _ | .bst _ _ _ => [.misalignedAccess, .accessFault]
  | .bld _ _ _ => [.misalignedAccess, .accessFault, .formatError, .capacityError]
  | .badd _ _ _ | .bsub _ _ _ | .bmul _ _ _ | .kmul _ _ _ => [.capacityError]
  | .bdiv _ _ _ | .brem _ _ _ => [.divisionByZero]
  | .mmod _ _ _ | .madd _ _ _ _ | .msub _ _ _ _ | .mmul _ _ _ _ | .msqr _ _ _ | .mexp _ _ _ _
  | .mredc _ _ _ | .mmont _ _ _ _ | .mtom _ _ _ => [.divisionByZero, .domainError]
  | .halt | .nop | .jal _ _ | .jalr _ _ _ | .beq _ _ _ | .bne _ _ _ | .blt _ _ _ | .bge _ _ _ | .bltu _ _ _
  | .bgeu _ _ _ | .add _ _ _ | .sub _ _ _ | .and _ _ _ | .or _ _ _ | .xor _ _ _ | .sll _ _ _ | .srl _ _ _
  | .sltu _ _ _ | .addi _ _ _ | .ori _ _ _ | .slli _ _ _ | .srli _ _ _ | .andi _ _ _ | .mullo _ _ _
  | .mulhu _ _ _ | .mul128 _ _ | .mac128 _ _ | .accadd _ | .accset _ _ | .acclo _ | .acchi _ | .accnorm _
  | .accpop _ | .bneg _ _ | .bcmp _ _ _ | .bmov _ _ | .bfromx _ _ | .bli _ _ | .blen _ _ | .blimb _ _ _
  | .bsgn _ _ => []

/-- 10_state.md R35: the instructions that write C. -/
def writesC : Instr → Bool
  | .mul128 _ _ | .mac128 _ _ | .accadd _ | .accset _ _ => true
  | .csrw _ csr => csr = 5
  | .halt | .nop | .csrr _ _ | .jal _ _ | .jalr _ _ _ | .beq _ _ _ | .bne _ _ _ | .blt _ _ _ | .bge _ _ _
  | .bltu _ _ _ | .bgeu _ _ _ | .add _ _ _ | .sub _ _ _ | .and _ _ _ | .or _ _ _ | .xor _ _ _ | .sll _ _ _
  | .srl _ _ _ | .sltu _ _ _ | .addi _ _ _ | .ori _ _ _ | .slli _ _ _ | .srli _ _ _ | .andi _ _ _
  | .mullo _ _ _ | .mulhu _ _ _ | .acclo _ | .acchi _ | .accnorm _ | .accpop _ | .badd _ _ _ | .bsub _ _ _
  | .bneg _ _ | .bmul _ _ _ | .kmul _ _ _ | .bdiv _ _ _ | .brem _ _ _ | .bcmp _ _ _ | .bmov _ _ | .bfromx _ _
  | .bli _ _ | .blen _ _ | .blimb _ _ _ | .bsgn _ _ | .mmod _ _ _ | .madd _ _ _ _ | .msub _ _ _ _
  | .mmul _ _ _ _ | .msqr _ _ _ | .mexp _ _ _ _ | .mredc _ _ _ | .mmont _ _ _ _ | .mtom _ _ _ | .ld _ _ _
  | .sd _ _ _ | .bld _ _ _ | .bst _ _ _ => false

/-- 10_state.md R34: the instructions that write ACC. -/
def writesAcc : Instr → Bool
  | .mul128 _ _ | .mac128 _ _ | .accadd _ | .accset _ _ | .accnorm _ | .accpop _ => true
  | .halt | .nop | .csrr _ _ | .csrw _ _ | .jal _ _ | .jalr _ _ _ | .beq _ _ _ | .bne _ _ _ | .blt _ _ _
  | .bge _ _ _ | .bltu _ _ _ | .bgeu _ _ _ | .add _ _ _ | .sub _ _ _ | .and _ _ _ | .or _ _ _ | .xor _ _ _
  | .sll _ _ _ | .srl _ _ _ | .sltu _ _ _ | .addi _ _ _ | .ori _ _ _ | .slli _ _ _ | .srli _ _ _ | .andi _ _ _
  | .mullo _ _ _ | .mulhu _ _ _ | .acclo _ | .acchi _ | .badd _ _ _ | .bsub _ _ _ | .bneg _ _ | .bmul _ _ _
  | .kmul _ _ _ | .bdiv _ _ _ | .brem _ _ _ | .bcmp _ _ _ | .bmov _ _ | .bfromx _ _ | .bli _ _ | .blen _ _
  | .blimb _ _ _ | .bsgn _ _ | .mmod _ _ _ | .madd _ _ _ _ | .msub _ _ _ _ | .mmul _ _ _ _ | .msqr _ _ _
  | .mexp _ _ _ _ | .mredc _ _ _ | .mmont _ _ _ _ | .mtom _ _ _ | .ld _ _ _ | .sd _ _ _ | .bld _ _ _
  | .bst _ _ _ => false

end Sys2Proof.Machine
end

