-- ==== Sys2Proof/Certificates/Slice0/Obligations.lean ====
section
/-! DEFINITION. What is claimed of the machine, for the provers. Each docstring names the rules a statement formalises,
or says that it rests on a choice of the model and names the log entry. -/

open Sys2Proof Sys2Proof.Machine

/-! ## Encoding -/

/-- 30_encoding.md R118, R120: decoding the word of a well-formed instruction gives the instruction back, for every
operand at every value its field admits. -/
def Obligations.DecodeEncodeRoundTrip : Prop :=
  ∀ i : Instr, i.wellFormed = true → decode (encode i) = .instr i

/-- R118, R120: a word that decodes is exactly the word its instruction encodes to, so no bit of it is ignored. -/
def Obligations.EncodeDecodeRoundTrip : Prop :=
  ∀ (w : InstrWord) (i : Instr), decode w = .instr i → i.wellFormed = true ∧ encode i = w

/-- R120: a word decodes as an instruction exactly when the masked word equals the row's match, every decoded
instruction has a row, and at most one row matches a word. -/
def Obligations.DecodeMatchesOpcodeTable : Prop :=
  (∀ (w : InstrWord) (r : MaskRow), r ∈ maskTable →
    (r.accepts w = true ↔ ∃ i, decode w = .instr i ∧ i.mnemonic = r.mnemonic)) ∧
  (∀ (w : InstrWord) (i : Instr), decode w = .instr i →
    ∃ r ∈ maskTable, r.accepts w = true ∧ r.mnemonic = i.mnemonic) ∧
  (∀ (w : InstrWord) (r r' : MaskRow), r ∈ maskTable → r' ∈ maskTable → r.accepts w = true → r'.accepts w = true →
    r = r')

/-- R138: worked encodings decode as the instructions they stand for. -/
def Obligations.SampleWordsDecode : Prop :=
  decode 0x20312000 = .instr (.mullo 3 1 2) ∧ decode 0x23072000 = .instr (.mac128 7 2) ∧
  decode 0x28800000 = .instr (.accnorm 8) ∧ decode 0x34312000 = .instr (.kmul 3 1 2) ∧
  decode 0x45412300 = .instr (.mexp 4 1 2 3) ∧ decode 0x44553000 = .instr (.msqr 5 5 3) ∧
  decode 0x48763000 = .instr (.mredc 7 6 3) ∧ decode 0x52100010 = .instr (.bld 1 0 16) ∧
  decode 0x50210008 = .instr (.ld 2 1 8) ∧ decode 0x0B63FFF9 = .instr (.bne 6 3 (-7)) ∧
  decode 0x08100003 = .instr (.jal 1 3) ∧ decode 0x080FFFFF = .instr (.jal 0 (-1)) ∧
  decode 0x04100006 = .instr (.csrw 1 6) ∧ decode 0x3A30FFFF = .instr (.bli 3 (-1)) ∧
  decode 0x01000000 = .instr .halt

/-! ## Steps and errors -/

/-- 00_scope.md R17, 60_exceptions.md R378: while the kernel runs, a step executes the instruction that the word at pc
decodes to. Whose turn it is: the kernel's when the list of turns is empty or says so (log 6). -/
def Obligations.StepRunsDecodedInstruction : Prop :=
  ∀ (s : State) (i : Instr), s.run = true → s.pc.toNat < s.params.imemWords →
    decode (imemRead s s.pc.toNat) = .instr i →
    (s.turns = [] → step s = exec i s) ∧
    (∀ rest, s.turns = .kernel :: rest → step s = exec i { s with turns := rest })

/-- 20_memory.md R81, 60_exceptions.md R361, R363: a fetch at a pc of IMEM_WORDS or more stops with FetchFault(pc).
Whose turn it is, is the model's schedule (log 6). -/
def Obligations.FetchBeyondImemStops : Prop :=
  ∀ s : State, s.run = true → s.params.imemWords ≤ s.pc.toNat →
    KernelTurnStops s ⟨.fetchFault, BitVec.ofNat 64 s.pc.toNat⟩

/-- 30_encoding.md R120, R130, R131: a word whose opcode is unassigned, or that no row of the opcode table accepts (so
also one with a nonzero reserved field or a big-register slot of 8 or more), stops with IllegalInstruction, EINFO the
whole word, zero-extended. Whose turn it is, is the model's schedule (log 6). -/
def Obligations.IllegalWordsStop : Prop :=
  ∀ (s : State) (w : InstrWord) (op : Nat), s.run = true → s.pc.toNat < s.params.imemWords →
    w = imemRead s s.pc.toNat → op = w.toNat / 2 ^ 24 →
    ((op = 0x00 ∨ (0x05 ≤ op ∧ op ≤ 0x07) ∨ (0x1D ≤ op ∧ op ≤ 0x1F) ∨ (0x2A ≤ op ∧ op ≤ 0x2F) ∨
      (0x3E ≤ op ∧ op ≤ 0x3F) ∨ (0x46 ≤ op ∧ op ≤ 0x47) ∨ (0x4B ≤ op ∧ op ≤ 0x4F) ∨ 0x54 ≤ op) ∨
      (∀ r ∈ maskTable, r.accepts w = false)) →
    KernelTurnStops s ⟨.illegalInstruction, BitVec.ofNat 64 w.toNat⟩

/-- The model's reading of R381 (log 7): while the kernel is idle, a step in which it moves changes nothing. The list of
turns, from which such a step takes the kernel's turn, is the model's schedule (log 6). -/
def Obligations.IdleKernelKeepsState : Prop :=
  ∀ s : State, s.run = false →
    (s.turns = [] → step s = .next s) ∧
    (∀ rest, s.turns = .kernel :: rest → step s = .next { s with turns := rest })

/-- 00_scope.md R16, 60_exceptions.md R365, R366: an instruction that raises an error has no effect besides the error
entry. -/
def Obligations.ErrorsArePrecise : Prop :=
  ∀ (i : Instr) (s t : State), s.err = false → exec i s = .next t → t.err = true → ∃ e, ErrorStop e s t

/-- 60_exceptions.md R362: which causes each instruction can raise once decoded, in a state of the invariant. -/
def Obligations.CausesAreThoseOfTheTable : Prop :=
  ∀ (i : Instr) (s t : State), Inv s → s.err = false → exec i s = .next t → t.err = true →
    ∃ e : Error, e.cause ∈ causesOf i ∧ ErrorStop e s t

/-- 10_state.md R34, R35, 20_memory.md R81, R99, 60_exceptions.md R371: only the named instructions write C or ACC, and no
instruction writes IMEM, START_PC, IE or a parameter. -/
def Obligations.InstructionsLeaveTheRestAlone : Prop :=
  ∀ (i : Instr) (s t : State), exec i s = .next t →
    (writesC i = false → t.c = s.c) ∧ (writesAcc i = false → t.acc = s.acc) ∧
    (∀ k, imemRead t k = imemRead s k) ∧ t.startPc = s.startPc ∧ t.ie = s.ie ∧ t.params = s.params

/-- The model's choice (log 24, DEDUCED): every instruction answers a next state in every state, no fault and no refusal;
70_reset_and_hazards.md R409 says only that every instruction completes, and 60_exceptions.md R365 that an error is a
stop with its state. That every step answers one too, the idle kernel's and those of the host and of a power-on reset,
is the model's choice of steps (log 6, log 7). -/
def Obligations.EveryStepAnswersANextState : Prop :=
  (∀ (i : Instr) (s : State), ∃ t, exec i s = .next t) ∧ (∀ s : State, ∃ t, step s = .next t)

/-! ## Reset and invariant -/

/-- 10_state.md R32, R36, R40, R44 to R48, 00_scope.md R7 to R9 and the canonical form of memory (log 4): every step,
whoever moves, keeps the invariant. -/
def Obligations.StepKeepsInvariant : Prop :=
  ∀ s t : State, Inv s → step s = .next t → Inv t

/-- The state after reset has the invariant, for every legal choice of the parameters. -/
def Obligations.ResetHasInvariant : Prop :=
  (∀ p : Params, p.legal = true → Inv (State.resetOf p)) ∧ Inv State.reset

/-- 70_reset_and_hazards.md R401: the value of every register after power-on reset. A byte of memory reads as the free
value of log 3, whatever it is. -/
def Obligations.ResetValues : Prop :=
  ∀ (p : Params) (s : State), s = State.resetOf p →
    (∀ k, readX s k = 0) ∧ s.acc = 0 ∧ s.c = false ∧ (∀ j, readB s j = 0) ∧ s.pc = 0 ∧
    s.run = false ∧ s.done = false ∧ s.err = false ∧ s.ie = false ∧
    s.cause = 0 ∧ s.epc = 0 ∧ s.einfo = 0 ∧ s.kthresh.toNat = 10 ∧ s.startPc = 0 ∧ irq s = false ∧ s.params = p ∧
    (∀ a, dmemByte s a = Config.powerOnDmem 0 a) ∧ (∀ a, imemByte s a = Config.powerOnImem 0 a)

/-! ## System instructions -/

/-- 60_exceptions.md R382: HALT ends a run normally. -/
def Obligations.HaltEndsTheRun : Prop :=
  ∀ s : State, HasWord .halt 0x01000000 ∧
    Completes .halt s fun t =>
      t.run = false ∧ t.done = true ∧ t.err = s.err ∧ t.ie = s.ie ∧ t.cause = s.cause ∧ t.epc = s.epc ∧
      t.einfo = s.einfo ∧ t.pc = s.pc ∧ (irq t = true ↔ s.ie = true) ∧ t.kthresh = s.kthresh ∧
      t.startPc = s.startPc ∧ t.params = s.params ∧
      KeepsX s t ∧ KeepsB s t ∧ KeepsAcc s t ∧ KeepsMemory s t ∧ KeepsModel s t

/-- 46_scalar_control.md R311: NOP only advances pc. -/
def Obligations.NopOnlyAdvances : Prop :=
  ∀ s : State, HasWord .nop 0x02000000 ∧ Completes .nop s (PcResult (s.pc + 1) s)

/-- 46_scalar_control.md R312, 10_state.md R41 to R52: CSRR gives the value of each of the eleven CSRs, and stops with
IllegalInstruction of its word on any other number. -/
def Obligations.CsrReadResult : Prop :=
  ∀ (d : XReg) (n : Nat) (s : State), n < 4096 →
    HasWord (.csrr d n) (iWord 0x03 d 0 n) ∧
    (∀ v, [0x4D4D4B01, BitVec.ofNat 64 (s.run.toNat + 2 * s.done.toNat + 4 * s.err.toNat + 8 * s.ie.toNat),
        BitVec.ofNat 64 s.cause.toNat, BitVec.ofNat 64 s.epc.toNat, s.einfo, BitVec.ofNat 64 s.c.toNat,
        BitVec.ofNat 64 s.kthresh.toNat, BitVec.ofNat 64 s.params.lmax, BitVec.ofNat 64 s.params.imemWords,
        BitVec.ofNat 64 s.params.dmemBytes, BitVec.ofNat 64 s.startPc.toNat][n]? = some v →
      Completes (.csrr d n) s (ScalarResult d v s)) ∧
    (0x00A < n → StopsWith (.csrr d n) s
      ⟨.illegalInstruction, BitVec.ofNat 64 (iWord 0x03 d 0 n)⟩)

/-- 46_scalar_control.md R313, 10_state.md R41, R47, R48: CSRW writes FLAGS (bit 0 of the value) and KTHRESH (the whole
64-bit value clamped to 3..65535), and stops with IllegalInstruction of its word on any other number. -/
def Obligations.CsrWriteResult : Prop :=
  ∀ (r : XReg) (n : Nat) (s : State), n < 4096 →
    HasWord (.csrw r n) (iWord 0x04 r 0 n) ∧
    (n = 0x005 → Completes (.csrw r n) s (AccResult s.acc.toNat ((readX s r).toNat % 2 = 1) s)) ∧
    (n = 0x006 → Completes (.csrw r n) s fun t =>
      t.kthresh.toNat = min (max (readX s r).toNat 3) 65535 ∧ t.pc = s.pc + 1 ∧
      t.params = s.params ∧ t.run = s.run ∧ t.done = s.done ∧ t.err = s.err ∧ t.ie = s.ie ∧ t.cause = s.cause ∧
      t.epc = s.epc ∧ t.einfo = s.einfo ∧ t.startPc = s.startPc ∧
      KeepsX s t ∧ KeepsB s t ∧ KeepsAcc s t ∧ KeepsMemory s t ∧ KeepsModel s t) ∧
    (n ≠ 0x005 → n ≠ 0x006 → StopsWith (.csrw r n) s
      ⟨.illegalInstruction, BitVec.ofNat 64 (iWord 0x04 r 0 n)⟩)

/-! ## Scalar ALU -/

/-- 46_scalar_control.md R314 to R318 and R321: ADD, SUB, AND, OR, XOR and SLTU. -/
def Obligations.RegisterArithmetic : Prop :=
  ∀ (d a b : XReg) (s : State),
    (HasWord (.add d a b) (rWord 0x10 d a b 0) ∧ Completes (.add d a b) s
      (ScalarResult d (BitVec.ofNat 64 ((readX s a).toNat + (readX s b).toNat)) s)) ∧
    (HasWord (.sub d a b) (rWord 0x11 d a b 0) ∧ Completes (.sub d a b) s
      (ScalarResult d (BitVec.ofInt 64 ((readX s a).toNat - (readX s b).toNat)) s)) ∧
    (HasWord (.and d a b) (rWord 0x12 d a b 0) ∧ Completes (.and d a b) s
      (ScalarResult d (BitVec.ofNat 64 ((readX s a).toNat &&& (readX s b).toNat)) s)) ∧
    (HasWord (.or d a b) (rWord 0x13 d a b 0) ∧ Completes (.or d a b) s
      (ScalarResult d (BitVec.ofNat 64 ((readX s a).toNat ||| (readX s b).toNat)) s)) ∧
    (HasWord (.xor d a b) (rWord 0x14 d a b 0) ∧ Completes (.xor d a b) s
      (ScalarResult d (BitVec.ofNat 64 ((readX s a).toNat ^^^ (readX s b).toNat)) s)) ∧
    (HasWord (.sltu d a b) (rWord 0x17 d a b 0) ∧ Completes (.sltu d a b) s
      (ScalarResult d (if (readX s a).toNat < (readX s b).toNat then 1 else 0) s))

/-- 46_scalar_control.md R319, R320, R324, R325: SLL, SRL, SLLI and SRLI. -/
def Obligations.ShiftResults : Prop :=
  ∀ (d a b : XReg) (sh : Nat) (s : State),
    (HasWord (.sll d a b) (rWord 0x15 d a b 0) ∧ Completes (.sll d a b) s
      (ScalarResult d (BitVec.ofNat 64 ((readX s a).toNat * 2 ^ ((readX s b).toNat % 64))) s)) ∧
    (HasWord (.srl d a b) (rWord 0x16 d a b 0) ∧ Completes (.srl d a b) s
      (ScalarResult d (BitVec.ofNat 64 ((readX s a).toNat / 2 ^ ((readX s b).toNat % 64))) s)) ∧
    (sh < 64 →
      (HasWord (.slli d a sh) (iWord 0x1A d a sh) ∧ Completes (.slli d a sh) s
        (ScalarResult d (BitVec.ofNat 64 ((readX s a).toNat * 2 ^ sh)) s)) ∧
      (HasWord (.srli d a sh) (iWord 0x1B d a sh) ∧ Completes (.srli d a sh) s
        (ScalarResult d (BitVec.ofNat 64 ((readX s a).toNat / 2 ^ sh)) s))) ∧
    (64 ≤ sh → sh < 65536 →
      decode (BitVec.ofNat 32 (iWord 0x1A d a sh)) = .illegal .shiftRange ∧
      decode (BitVec.ofNat 32 (iWord 0x1B d a sh)) = .illegal .shiftRange)

/-- 46_scalar_control.md R322, R323, R326: ADDI, ORI and ANDI. -/
def Obligations.ImmediateArithmetic : Prop :=
  ∀ (d a : XReg) (imm : BitVec 16) (s : State),
    (HasWord (.addi d a imm) (iWord 0x18 d a imm.toNat) ∧ Completes (.addi d a imm) s
      (ScalarResult d (BitVec.ofInt 64 ((readX s a).toNat + imm.toInt)) s)) ∧
    (HasWord (.ori d a imm) (iWord 0x19 d a imm.toNat) ∧ Completes (.ori d a imm) s
      (ScalarResult d (BitVec.ofNat 64 ((readX s a).toNat ||| imm.toNat)) s)) ∧
    (HasWord (.andi d a imm) (iWord 0x1C d a imm.toNat) ∧ Completes (.andi d a imm) s
      (ScalarResult d (BitVec.ofNat 64 ((readX s a).toNat &&& imm.toNat)) s))

/-! ## Control transfer -/

/-- 46_scalar_control.md R327 to R329: JAL and JALR write the return index and go to the target modulo 2^32; the source
of JALR is read before its destination is written. -/
def Obligations.JumpsLinkAndGo : Prop :=
  ∀ (d b : XReg) (off : BitVec 20) (imm : BitVec 16) (s : State),
    (HasWord (.jal d off) (jWord 0x08 d off.toNat) ∧ Completes (.jal d off) s
      (LinkResult d (BitVec.ofInt 32 (s.pc.toNat + off.toInt)) s)) ∧
    (HasWord (.jalr d b imm) (iWord 0x09 d b imm.toNat) ∧ Completes (.jalr d b imm) s
      (LinkResult d (BitVec.ofInt 32 ((readX s b).toNat + imm.toInt)) s))

/-- 46_scalar_control.md R330 to R335: the six branches. -/
def Obligations.BranchResults : Prop :=
  ∀ (a b : XReg) (off : BitVec 16) (s : State) (target : Index),
    target = BitVec.ofInt 32 (s.pc.toNat + off.toInt) →
    (HasWord (.beq a b off) (iWord 0x0A a b off.toNat) ∧ Completes (.beq a b off) s
      (PcResult (if (readX s a).toNat = (readX s b).toNat then target else s.pc + 1) s)) ∧
    (HasWord (.bne a b off) (iWord 0x0B a b off.toNat) ∧ Completes (.bne a b off) s
      (PcResult (if (readX s a).toNat ≠ (readX s b).toNat then target else s.pc + 1) s)) ∧
    (HasWord (.blt a b off) (iWord 0x0C a b off.toNat) ∧ Completes (.blt a b off) s
      (PcResult (if (readX s a).toInt < (readX s b).toInt then target else s.pc + 1) s)) ∧
    (HasWord (.bge a b off) (iWord 0x0D a b off.toNat) ∧ Completes (.bge a b off) s
      (PcResult (if (readX s a).toInt ≥ (readX s b).toInt then target else s.pc + 1) s)) ∧
    (HasWord (.bltu a b off) (iWord 0x0E a b off.toNat) ∧ Completes (.bltu a b off) s
      (PcResult (if (readX s a).toNat < (readX s b).toNat then target else s.pc + 1) s)) ∧
    (HasWord (.bgeu a b off) (iWord 0x0F a b off.toNat) ∧ Completes (.bgeu a b off) s
      (PcResult (if (readX s a).toNat ≥ (readX s b).toNat then target else s.pc + 1) s))

/-! ## The accumulator -/

/-- 40_limb_mac.md R151, R152, R157, R158: the halves of the unsigned product, and the halves of ACC. -/
def Obligations.MultiplyAndAccumulatorHalves : Prop :=
  ∀ (d a b : XReg) (s : State),
    (HasWord (.mullo d a b) (rWord 0x20 d a b 0) ∧ Completes (.mullo d a b) s
      (ScalarResult d (BitVec.ofNat 64 ((readX s a).toNat * (readX s b).toNat % 2 ^ 64)) s)) ∧
    (HasWord (.mulhu d a b) (rWord 0x21 d a b 0) ∧ Completes (.mulhu d a b) s
      (ScalarResult d (BitVec.ofNat 64 ((readX s a).toNat * (readX s b).toNat / 2 ^ 64)) s)) ∧
    (HasWord (.acclo d) (rWord 0x26 d 0 0 0) ∧ Completes (.acclo d) s
      (ScalarResult d (BitVec.ofNat 64 (s.acc.toNat % 2 ^ 64)) s)) ∧
    (HasWord (.acchi d) (rWord 0x27 d 0 0 0) ∧ Completes (.acchi d) s
      (ScalarResult d (BitVec.ofNat 64 (s.acc.toNat / 2 ^ 64)) s))

/-- 40_limb_mac.md R153 to R156: MUL128, MAC128, ACCADD and ACCSET, with C. -/
def Obligations.AccumulatorWrites : Prop :=
  ∀ (a b : XReg) (s : State),
    (HasWord (.mul128 a b) (rWord 0x22 0 a b 0) ∧ Completes (.mul128 a b) s
      (AccResult ((readX s a).toNat * (readX s b).toNat) false s)) ∧
    (HasWord (.mac128 a b) (rWord 0x23 0 a b 0) ∧ Completes (.mac128 a b) s
      (AccResult ((s.acc.toNat + (readX s a).toNat * (readX s b).toNat) % 2 ^ 128)
        (2 ^ 128 ≤ s.acc.toNat + (readX s a).toNat * (readX s b).toNat) s)) ∧
    (HasWord (.accadd a) (rWord 0x24 0 a 0 0) ∧ Completes (.accadd a) s
      (AccResult ((s.acc.toNat + (readX s a).toNat) % 2 ^ 128) (2 ^ 128 ≤ s.acc.toNat + (readX s a).toNat) s)) ∧
    (HasWord (.accset a b) (rWord 0x25 0 a b 0) ∧ Completes (.accset a b) s
      (AccResult ((readX s a).toNat * 2 ^ 64 + (readX s b).toNat) false s))

/-- 40_limb_mac.md R159, R160: ACCNORM and ACCPOP split ACC, also with x0 as the destination; C is unchanged. -/
def Obligations.AccumulatorSplits : Prop :=
  ∀ (d : XReg) (s : State),
    (HasWord (.accnorm d) (rWord 0x28 d 0 0 0) ∧ Completes (.accnorm d) s
      (ScalarAccResult d (s.acc.toNat % 10 ^ 9) (s.acc.toNat / 10 ^ 9) s)) ∧
    (HasWord (.accpop d) (rWord 0x29 d 0 0 0) ∧ Completes (.accpop d) s
      (ScalarAccResult d (s.acc.toNat % 2 ^ 64) (s.acc.toNat / 2 ^ 64) s))

/-! ## BigInt arithmetic -/

/-- 41_bigint.md R180 to R182: BADD and BSUB write the exact result if it fits, else stop with CapacityError. -/
def Obligations.BigAddAndSubtract : Prop :=
  ∀ (d a b : BReg) (s : State),
    (HasWord (.badd d a b) (rWord 0x30 d a b 0) ∧ FitsOrStops (.badd d a b) d (readB s a + readB s b) s) ∧
    (HasWord (.bsub d a b) (rWord 0x31 d a b 0) ∧ FitsOrStops (.bsub d a b) d (readB s a - readB s b) s)

/-- 41_bigint.md R183, R188: BNEG and BMOV never stop, in a state whose source fits (10_state.md R36). -/
def Obligations.BigNegateAndMove : Prop :=
  ∀ (d a : BReg) (s : State), len (readB s a) ≤ s.params.lmax →
    (HasWord (.bneg d a) (rWord 0x32 d a 0 0) ∧ Completes (.bneg d a) s (BigResult d (-readB s a) s)) ∧
    (HasWord (.bmov d a) (rWord 0x38 d a 0 0) ∧ Completes (.bmov d a) s (BigResult d (readB s a) s))

/-- 41_bigint.md R189, R190: BFROMX and BLI never stop, because LMAX is at least 4 (00_scope.md R7). -/
def Obligations.BigConstruction : Prop :=
  ∀ (d : BReg) (x : XReg) (imm : BitVec 16) (s : State), 4 ≤ s.params.lmax →
    (HasWord (.bfromx d x) (rWord 0x39 d x 0 0) ∧ Completes (.bfromx d x) s (BigResult d (readX s x).toInt s)) ∧
    (HasWord (.bli d imm) (iWord 0x3A d 0 imm.toNat) ∧ Completes (.bli d imm) s (BigResult d imm.toInt s))

/-- 41_bigint.md R184, R185: BDIV and BREM truncate toward zero (`Int.tdiv` and `Int.tmod` of the library), and stop with
DivisionByZero(0) on a zero divisor. The dividend and divisor fit (10_state.md R36). -/
def Obligations.DivisionAndRemainder : Prop :=
  ∀ (d a b : BReg) (s : State), len (readB s a) ≤ s.params.lmax → len (readB s b) ≤ s.params.lmax →
    (HasWord (.bdiv d a b) (rWord 0x35 d a b 0) ∧
      (readB s b ≠ 0 → Completes (.bdiv d a b) s (BigResult d ((readB s a).tdiv (readB s b)) s)) ∧
      (readB s b = 0 → StopsWith (.bdiv d a b) s ⟨.divisionByZero, 0⟩)) ∧
    (HasWord (.brem d a b) (rWord 0x36 d a b 0) ∧
      (readB s b ≠ 0 → Completes (.brem d a b) s (BigResult d ((readB s a).tmod (readB s b)) s)) ∧
      (readB s b = 0 → StopsWith (.brem d a b) s ⟨.divisionByZero, 0⟩))

/-- 00_scope.md R14: the division identity, the size and sign of the remainder, and mathMod as the residue in [0, m). -/
def Obligations.DivisionPrimitives : Prop :=
  (∀ a b : Int, b ≠ 0 → tdiv a b * b + trem a b = a ∧ (trem a b).natAbs < b.natAbs ∧
    (trem a b = 0 ∨ (trem a b).sign = a.sign)) ∧
  (∀ a m : Int, 0 < m → 0 ≤ mathMod a m ∧ mathMod a m < m ∧ m ∣ a - mathMod a m ∧
    ∀ r, 0 ≤ r → r < m → m ∣ a - r → r = mathMod a m)

/-- 41_bigint.md R187, R191, R192, R193: BCMP, BLEN, BLIMB (for every 64-bit index) and BSGN. -/
def Obligations.BigInspection : Prop :=
  ∀ (d x : XReg) (a b : BReg) (s : State),
    (HasWord (.bcmp d a b) (rWord 0x37 d a b 0) ∧ Completes (.bcmp d a b) s
      (ScalarResult d (if readB s a < readB s b then 0xFFFFFFFFFFFFFFFF else if readB s a = readB s b then 0 else 1) s)) ∧
    (HasWord (.blen d a) (rWord 0x3B d a 0 0) ∧ Completes (.blen d a) s
      (ScalarResult d (BitVec.ofNat 64 (len (readB s a))) s)) ∧
    (HasWord (.blimb d a x) (rWord 0x3C d a x 0) ∧ Completes (.blimb d a x) s
      (ScalarResult d (BitVec.ofNat 64 ((readB s a).natAbs / (10 ^ 9) ^ (readX s x).toNat % 10 ^ 9)) s)) ∧
    (HasWord (.bsgn d a) (rWord 0x3D d a 0 0) ∧ Completes (.bsgn d a) s
      (ScalarResult d (BitVec.ofInt 64 (readB s a).sign) s))

/-- 00_scope.md R13: `len` is the least number of limbs that holds the magnitude; the limbs are below 10^9, denote the
magnitude, and the most significant one is not zero unless the value is. -/
def Obligations.LimbsAreCanonical : Prop :=
  ∀ v : Int, (1 ≤ len v ∧ v.natAbs < (10 ^ 9) ^ len v ∧ ∀ n, 1 ≤ n → v.natAbs < (10 ^ 9) ^ n → len v ≤ n) ∧
    (limbs v).length = len v ∧ (∀ l ∈ limbs v, l < 10 ^ 9) ∧ ofLimbs (limbs v) = v.natAbs ∧
    (v ≠ 0 → limb v (len v - 1) ≠ 0)

/-! ## Multiplication -/

/-- 42_multiply.md R221, R223, R225: BMUL and KMUL write the exact product if it fits, whatever KTHRESH holds, else stop
with CapacityError. -/
def Obligations.ProductsAreExact : Prop :=
  ∀ (d a b : BReg) (s : State),
    (HasWord (.bmul d a b) (rWord 0x33 d a b 0) ∧ FitsOrStops (.bmul d a b) d (readB s a * readB s b) s) ∧
    (HasWord (.kmul d a b) (rWord 0x34 d a b 0) ∧ FitsOrStops (.kmul d a b) d (readB s a * readB s b) s)

/-- 42_multiply.md R229: KMUL and BMUL do the same in every state, value and error alike. -/
def Obligations.KaratsubaEqualsSchoolbook : Prop :=
  ∀ (d a b : BReg) (s : State), exec (.kmul d a b) s = exec (.bmul d a b) s

/-- 42_multiply.md R224, R225, R227: for every threshold of 3 or more the reference decomposition ends, within
max(a, b) + 1 levels, and gives the product; with threshold 2 two one-limb operands split without end. -/
def Obligations.KaratsubaEndsWithTheProduct : Prop :=
  (∀ t a b : Nat, 3 ≤ t → kara t (max a b + 1) a b = some (a * b)) ∧
  (∀ fuel a b : Nat, a < 10 ^ 9 → b < 10 ^ 9 → kara 2 fuel a b = none)

/-! ## Modular arithmetic -/

/-- 43_modular.md R240 to R245: with a valid modulus that fits, MMOD, MADD, MSUB, MMUL and MSQR write the residue in
[0, m) of the exact result (`%` of the library's integers, whose result lies in [0, m) for m > 0). -/
def Obligations.ModularResults : Prop :=
  ∀ (d a b m : BReg) (s : State), 0 < readB s m → len (readB s m) ≤ s.params.lmax →
    (HasWord (.mmod d a m) (rWord 0x40 d a m 0) ∧ Completes (.mmod d a m) s
      (BigResult d (readB s a % readB s m) s)) ∧
    (HasWord (.madd d a b m) (rWord 0x41 d a b m) ∧ Completes (.madd d a b m) s
      (BigResult d ((readB s a + readB s b) % readB s m) s)) ∧
    (HasWord (.msub d a b m) (rWord 0x42 d a b m) ∧ Completes (.msub d a b m) s
      (BigResult d ((readB s a - readB s b) % readB s m) s)) ∧
    (HasWord (.mmul d a b m) (rWord 0x43 d a b m) ∧ Completes (.mmul d a b m) s
      (BigResult d (readB s a * readB s b % readB s m) s)) ∧
    (HasWord (.msqr d a m) (rWord 0x44 d a m 0) ∧ Completes (.msqr d a m) s
      (BigResult d (readB s a * readB s a % readB s m) s))

/-- 43_modular.md R247, R250: MEXP gives the power modulo m, and 1 for exponent 0 whatever the modulus. -/
def Obligations.ModularExponentiation : Prop :=
  ∀ (d a n m : BReg) (s : State), HasWord (.mexp d a n m) (rWord 0x45 d a n m) ∧
    (0 < readB s m → len (readB s m) ≤ s.params.lmax →
      (0 < readB s n → Completes (.mexp d a n m) s
        (BigResult d (readB s a ^ (readB s n).toNat % readB s m) s)) ∧
      (readB s n = 0 → Completes (.mexp d a n m) s (BigResult d 1 s)) ∧
      (readB s n < 0 → StopsWith (.mexp d a n m) s ⟨.domainError, 1⟩))

/-- 43_modular.md R240, 44_montgomery.md R270, 60_exceptions.md R364: a zero modulus stops with DivisionByZero(0) and a
negative one with DomainError(2), before any other check, in every modular and Montgomery instruction. -/
def Obligations.BadModulusStops : Prop :=
  ∀ (d a b m : BReg) (s : State) (i : Instr),
    i ∈ [.mmod d a m, .madd d a b m, .msub d a b m, .mmul d a b m, .msqr d a m, .mexp d a b m, .mredc d a m,
      .mmont d a b m, .mtom d a m] →
    (readB s m = 0 → StopsWith i s ⟨.divisionByZero, 0⟩) ∧ (readB s m < 0 → StopsWith i s ⟨.domainError, 2⟩)

/-! ## Montgomery -/

/-- 44_montgomery.md R270 to R273: with a valid modulus that fits, MREDC and MMONT write the r in [0, m) with
`R · r` congruent to the operand (the product of the operands), MTOM the residue of `a · R`, where R = 10^(9·len(m)); a
modulus that shares a factor with 10 stops with DomainError(3). -/
def Obligations.MontgomeryResults : Prop :=
  ∀ (d a b m : BReg) (s : State), 0 < readB s m → len (readB s m) ≤ s.params.lmax →
    HasWord (.mredc d a m) (rWord 0x48 d a m 0) ∧ HasWord (.mmont d a b m) (rWord 0x49 d a b m) ∧
    HasWord (.mtom d a m) (rWord 0x4A d a m 0) ∧
    (Int.gcd (readB s m) 10 = 1 →
      (∃ r, 0 ≤ r ∧ r < readB s m ∧ readB s m ∣ 10 ^ (9 * len (readB s m)) * r - readB s a ∧
        Completes (.mredc d a m) s (BigResult d r s)) ∧
      (∃ r, 0 ≤ r ∧ r < readB s m ∧ readB s m ∣ 10 ^ (9 * len (readB s m)) * r - readB s a * readB s b ∧
        Completes (.mmont d a b m) s (BigResult d r s)) ∧
      Completes (.mtom d a m) s (BigResult d (readB s a * 10 ^ (9 * len (readB s m)) % readB s m) s)) ∧
    (Int.gcd (readB s m) 10 ≠ 1 →
      StopsWith (.mredc d a m) s ⟨.domainError, 3⟩ ∧ StopsWith (.mmont d a b m) s ⟨.domainError, 3⟩ ∧
      StopsWith (.mtom d a m) s ⟨.domainError, 3⟩)

/-- 44_montgomery.md R270, R275: the inverse of the radix, and the laws of conversion, reduction and multiplication. -/
def Obligations.MontgomeryLaws : Prop :=
  ∀ m : Int, 0 < m → Int.gcd m 10 = 1 →
    0 ≤ montRinv m ∧ montRinv m < m ∧ m ∣ montR m * montRinv m - 1 ∧
    ∀ a b : Int,
      mathMod (mathMod (a * montR m) m * montRinv m) m = mathMod a m ∧
      mathMod (mathMod (a * montR m) m * mathMod (b * montR m) m * montRinv m) m = mathMod (a * b * montR m) m ∧
      mathMod (mathMod (mathMod (a * montR m) m * mathMod (b * montR m) m * montRinv m) m * montRinv m) m =
        mathMod (mathMod a m * mathMod b m) m

/-! ## Loads and stores -/

/-- 20_memory.md R84: little-endian words. A word read after it is written is the word, its bytes are the word's from
the lowest address on, and every other byte is as before. -/
def Obligations.MemoryIsLittleEndian : Prop :=
  ∀ (s : State) (a : Nat),
    (memRead s a).toNat = ∑ k ∈ Finset.range 8, (dmemByte s (a + k)).toNat * 2 ^ (8 * k) ∧
    ∀ v : Word, memRead (memWrite a v s) a = v ∧
      (∀ k, k < 8 → (dmemByte (memWrite a v s) (a + k)).toNat = v.toNat / 2 ^ (8 * k) % 2 ^ 8) ∧
      (∀ b, (b < a ∨ a + 8 ≤ b) → dmemByte (memWrite a v s) b = dmemByte s b)

/-- 45_loadstore.md R290, R292, 20_memory.md R86 to R88: LD. -/
def Obligations.LoadWordResult : Prop :=
  ∀ (d b : XReg) (imm : BitVec 16) (s : State) (ea : Word), ea = effectiveAddress (readX s b) imm →
    ea = BitVec.ofInt 64 ((readX s b).toNat + imm.toInt) ∧ HasWord (.ld d b imm) (iWord 0x50 d b imm.toNat) ∧
    (ea.toNat % 8 ≠ 0 → StopsWith (.ld d b imm) s ⟨.misalignedAccess, ea⟩) ∧
    (ea.toNat % 8 = 0 → s.params.dmemBytes < ea.toNat + 8 → StopsWith (.ld d b imm) s ⟨.accessFault, ea⟩) ∧
    (ea.toNat % 8 = 0 → ea.toNat + 8 ≤ s.params.dmemBytes →
      Completes (.ld d b imm) s (ScalarResult d (memRead s ea.toNat) s))

/-- 45_loadstore.md R291, R292, 20_memory.md R86 to R89: SD stores its eight bytes and nothing else. -/
def Obligations.StoreWordResult : Prop :=
  ∀ (x b : XReg) (imm : BitVec 16) (s : State) (ea : Word), ea = effectiveAddress (readX s b) imm →
    ea = BitVec.ofInt 64 ((readX s b).toNat + imm.toInt) ∧ HasWord (.sd x b imm) (iWord 0x51 x b imm.toNat) ∧
    (ea.toNat % 8 ≠ 0 → StopsWith (.sd x b imm) s ⟨.misalignedAccess, ea⟩) ∧
    (ea.toNat % 8 = 0 → s.params.dmemBytes < ea.toNat + 8 → StopsWith (.sd x b imm) s ⟨.accessFault, ea⟩) ∧
    (ea.toNat % 8 = 0 → ea.toNat + 8 ≤ s.params.dmemBytes →
      Completes (.sd x b imm) s (StoreResult ea.toNat [readX s x] s))

/-- 45_loadstore.md R293, 20_memory.md R90, R91: BLD of a well-formed image in range writes the value it denotes, high
zero limbs and a negative zero normalised. -/
def Obligations.LoadImageResult : Prop :=
  ∀ (d : BReg) (b : XReg) (imm : BitVec 16) (s : State) (ea n : Nat) (h : Word),
    ea = (effectiveAddress (readX s b) imm).toNat → h = memRead s ea → n = h.toNat % 2 ^ 32 →
    ea % 8 = 0 → ea + 8 + 8 * n ≤ s.params.dmemBytes → h.toNat / 2 ^ 32 % 2 ^ 31 = 0 → 1 ≤ n → n ≤ s.params.lmax →
    (∀ j, j < n → (memRead s (ea + 8 + 8 * j)).toNat < 10 ^ 9) →
    HasWord (.bld d b imm) (iWord 0x52 d b imm.toNat) ∧
    Completes (.bld d b imm) s (BigResult d
      ((if h.toNat / 2 ^ 63 = 1 then -1 else 1) *
        ((∑ j ∈ Finset.range n, (memRead s (ea + 8 + 8 * j)).toNat * (10 ^ 9) ^ j : Nat) : Int)) s)

/-- 45_loadstore.md R294: the checks of BLD in their order, each with its error; each clause assumes that the checks
before it pass. -/
def Obligations.LoadImageErrors : Prop :=
  ∀ (d : BReg) (b : XReg) (imm : BitVec 16) (s : State) (ea : Word) (h : Word) (n : Nat),
    ea = effectiveAddress (readX s b) imm → h = memRead s ea.toNat → n = h.toNat % 2 ^ 32 →
    (ea.toNat % 8 ≠ 0 → StopsWith (.bld d b imm) s ⟨.misalignedAccess, ea⟩) ∧
    (ea.toNat % 8 = 0 →
      (s.params.dmemBytes < ea.toNat + 8 → StopsWith (.bld d b imm) s ⟨.accessFault, ea⟩) ∧
      (ea.toNat + 8 ≤ s.params.dmemBytes →
        (h.toNat / 2 ^ 32 % 2 ^ 31 ≠ 0 ∨ n = 0 → StopsWith (.bld d b imm) s ⟨.formatError, ea⟩) ∧
        (h.toNat / 2 ^ 32 % 2 ^ 31 = 0 → n ≠ 0 →
          (s.params.lmax < n → StopsWith (.bld d b imm) s ⟨.capacityError, BitVec.ofNat 64 n⟩) ∧
          (n ≤ s.params.lmax →
            (∀ j, j < n → s.params.dmemBytes < ea.toNat + 8 + 8 * j + 8 →
              (∀ k, k < j → ea.toNat + 8 + 8 * k + 8 ≤ s.params.dmemBytes) →
              StopsWith (.bld d b imm) s ⟨.accessFault, BitVec.ofNat 64 (ea.toNat + 8 + 8 * j)⟩) ∧
            (ea.toNat + 8 + 8 * n ≤ s.params.dmemBytes → ∀ j, j < n →
              10 ^ 9 ≤ (memRead s (ea.toNat + 8 + 8 * j)).toNat →
              (∀ k, k < j → (memRead s (ea.toNat + 8 + 8 * k)).toNat < 10 ^ 9) →
              StopsWith (.bld d b imm) s ⟨.formatError, BitVec.ofNat 64 (ea.toNat + 8 + 8 * j)⟩)))))

/-- 45_loadstore.md R295, R296, 20_memory.md R89 to R91: BST writes the canonical image, header first, and nothing else;
or it stops on the first out-of-range word and writes nothing. -/
def Obligations.StoreImageResult : Prop :=
  ∀ (a : BReg) (b : XReg) (imm : BitVec 16) (s : State) (ea : Word) (v : Int),
    ea = effectiveAddress (readX s b) imm → v = readB s a →
    HasWord (.bst a b imm) (iWord 0x53 a b imm.toNat) ∧
    (ea.toNat % 8 ≠ 0 → StopsWith (.bst a b imm) s ⟨.misalignedAccess, ea⟩) ∧
    (ea.toNat % 8 = 0 →
      (∀ j, j ≤ len v → s.params.dmemBytes < ea.toNat + 8 * j + 8 →
        (∀ k, k < j → ea.toNat + 8 * k + 8 ≤ s.params.dmemBytes) →
        StopsWith (.bst a b imm) s ⟨.accessFault, BitVec.ofNat 64 (ea.toNat + 8 * j)⟩) ∧
      (ea.toNat + 8 * (len v + 1) ≤ s.params.dmemBytes →
        Completes (.bst a b imm) s (StoreResult ea.toNat
          (BitVec.ofNat 64 ((if v < 0 then 2 ^ 63 else 0) + len v) ::
            (List.range (len v)).map fun j => BitVec.ofNat 64 (limb v j)) s)))

/-- 45_loadstore.md R295: a BST followed by a BLD of the same address reproduces the value, in the destination and in
nothing else. -/
def Obligations.StoredImageLoadsBack : Prop :=
  ∀ (a d : BReg) (b : XReg) (imm : BitVec 16) (s t : State), s.params.legal = true → s.err = false →
    len (readB s a) ≤ s.params.lmax → exec (.bst a b imm) s = .next t → t.err = false →
    Completes (.bld d b imm) t (BigResult d (readB s a) t)

/-! ## The host interface -/

/-- 60_exceptions.md R378: GO, a write of CTRL bit 0, starts an idle kernel at START_PC, keeps everything else, and is
ignored during a run. -/
def Obligations.GoStartsARun : Prop :=
  ∀ s : State,
    (s.run = true → busWrite s.params.base 64 1 s = s) ∧
    (s.run = false → ∀ t, t = busWrite s.params.base 64 1 s →
      t.pc = s.startPc ∧ t.done = false ∧ t.err = false ∧ t.cause = 0 ∧ t.epc = 0 ∧ t.einfo = 0 ∧ t.run = true ∧
      t.ie = s.ie ∧ t.kthresh = s.kthresh ∧ t.startPc = s.startPc ∧ t.params = s.params ∧
      KeepsX s t ∧ KeepsB s t ∧ KeepsAcc s t ∧ KeepsMemory s t ∧ KeepsModel s t)

/-- 60_exceptions.md R379, R368: CLR, a write of CTRL bit 2, acknowledges the end of a run: it clears DONE, ERR and the
error record, the interrupt falls, and nothing else changes. -/
def Obligations.ClrAcknowledgesARun : Prop :=
  ∀ s t : State, s.run = false → t = busWrite s.params.base 64 4 s →
    t.done = false ∧ t.err = false ∧ t.cause = 0 ∧ t.epc = 0 ∧ t.einfo = 0 ∧ irq t = false ∧ t.run = false ∧
    t.pc = s.pc ∧ t.ie = s.ie ∧ t.kthresh = s.kthresh ∧ t.startPc = s.startPc ∧ t.params = s.params ∧
    KeepsX s t ∧ KeepsB s t ∧ KeepsAcc s t ∧ KeepsMemory s t ∧ KeepsModel s t

/-- 60_exceptions.md R377: the bits of a CTRL write act in the order SRESET (alone), CLR, GO; bits 63:3 are ignored and
CTRL reads 0. -/
def Obligations.CtrlBitsActInOrder : Prop :=
  ∀ (s : State) (v : Word),
    (v.toNat / 2 % 2 = 1 → busWrite s.params.base 64 v s = busWrite s.params.base 64 2 s) ∧
    (v.toNat / 2 % 2 = 0 → s.run = false → ∀ t,
      t = (if v.toNat / 4 % 2 = 1 then busWrite s.params.base 64 4 s else s) →
      busWrite s.params.base 64 v s = if v.toNat % 2 = 1 then busWrite s.params.base 64 1 t else t) ∧
    (v.toNat / 2 % 2 = 0 → s.run = true → busWrite s.params.base 64 v s = s) ∧
    busRead s s.params.base 64 = some 0

/-- 70_reset_and_hazards.md R402: a soft reset sets every register to its reset value and keeps the memories; during a
run they are those before the instruction in progress or those after it, and the model leaves open which (log 8). -/
def Obligations.SoftResetKeepsMemoryOnly : Prop :=
  ∀ s t : State, t = busWrite s.params.base 64 2 s →
    (∀ k, readX t k = 0) ∧ t.acc = 0 ∧ t.c = false ∧ (∀ j, readB t j = 0) ∧ t.pc = 0 ∧ t.run = false ∧
    t.done = false ∧ t.err = false ∧ t.ie = false ∧ t.cause = 0 ∧ t.epc = 0 ∧ t.einfo = 0 ∧ t.kthresh.toNat = 10 ∧
    t.startPc = 0 ∧ t.params = s.params ∧ irq t = false ∧ t.turns = s.turns ∧
    (s.run = false → KeepsMemory s t) ∧
    (s.run = true → KeepsMemory s t ∨ ∃ s', kernelStep s = .next s' ∧ KeepsMemory s' t)

/-- 60_exceptions.md R376: during a run a host write changes nothing but IE (at STATUS) or resets the block (CTRL bit 1),
a host read of STATUS, ID, LMAX, IMEMW or DMEMB returns its value, and every other one returns 0. -/
def Obligations.RunShutsTheHostOut : Prop :=
  ∀ (s : State) (addr width : Nat) (v : Word), s.run = true →
    ((¬ (addr = s.params.base + 0x08 ∧ width = 64) → ¬ (addr = s.params.base ∧ width = 64 ∧ v.toNat / 2 % 2 = 1) →
        busWrite addr width v s = s) ∧
      busWrite (s.params.base + 0x08) 64 v s = { s with ie := decide (v.toNat / 8 % 2 = 1) }) ∧
    (busRead s addr width ≠ none → busRead s addr width ≠ some 0 →
      width = 64 ∧ (addr = s.params.base + 0x08 ∨ addr = s.params.base + 0x38 ∨ addr = s.params.base + 0x40 ∨
        addr = s.params.base + 0x48 ∨ addr = s.params.base + 0x50)) ∧
    busRead s (s.params.base + 0x08) 64 =
      some (BitVec.ofNat 64 (1 + 2 * s.done.toNat + 4 * s.err.toNat + 8 * s.ie.toNat)) ∧
    busRead s (s.params.base + 0x38) 64 = some 0x4D4D4B01 ∧
    busRead s (s.params.base + 0x40) 64 = some (BitVec.ofNat 64 s.params.lmax) ∧
    busRead s (s.params.base + 0x48) 64 = some (BitVec.ofNat 64 s.params.imemWords) ∧
    busRead s (s.params.base + 0x50) 64 = some (BitVec.ofNat 64 s.params.dmemBytes)

/-- 60_exceptions.md R375, 10_state.md R43 to R52: what an idle host reads in every register, what its write of each
does and that it does nothing else, that the read-only registers ignore writes, that every other offset or width outside
the windows reads 0 and ignores writes, and what the host reads back after it writes a register. -/
def Obligations.HostRegistersReadBack : Prop :=
  ∀ (s : State) (v : Word) (i : XReg) (p : Nat), s.run = false → p = s.params.base →
    (∀ off n, (off, n) ∈ registerMap s → busRead s (p + off) 64 = some (BitVec.ofNat 64 n)) ∧
    (∀ off ∈ [0x10, 0x18, 0x20, 0x38, 0x40, 0x48, 0x50, 0x60], busWrite (p + off) 64 v s = s) ∧
    (∀ off width, (off < 0x10000 ∨ 0x20000 ≤ off ∧ off < 0x100000) →
      (width ≠ 64 ∨ ∀ n, (off, n) ∉ registerMap s) →
      busRead s (p + off) width = some 0 ∧ busWrite (p + off) width v s = s) ∧
    busWrite (p + 0x08) 64 v s = { s with ie := decide (v.toNat / 8 % 2 = 1) } ∧
    busWrite (p + 0x28) 64 v s = { s with startPc := BitVec.ofNat 32 v.toNat } ∧
    busWrite (p + 0x30) 64 v s = { s with kthresh := BitVec.ofNat 16 (min (max v.toNat 3) 65535) } ∧
    busWrite (p + 0x58) 64 v s = { s with c := decide (v.toNat % 2 = 1) } ∧
    (∀ t, t = busWrite (p + 0x100 + 8 * i.val) 64 v s →
      t = { s with x := t.x } ∧ ∀ k, readX t k = if k = i ∧ k ≠ 0 then v else readX s k) ∧
    busWrite (p + 0x200) 64 v s =
      { s with acc := BitVec.ofNat 128 (s.acc.toNat / 2 ^ 64 * 2 ^ 64 + v.toNat) } ∧
    busWrite (p + 0x208) 64 v s =
      { s with acc := BitVec.ofNat 128 (v.toNat * 2 ^ 64 + s.acc.toNat % 2 ^ 64) } ∧
    busRead (busWrite (p + 0x08) 64 v s) (p + 0x08) 64 =
      some (BitVec.ofNat 64 (2 * s.done.toNat + 4 * s.err.toNat + 8 * (v.toNat / 8 % 2))) ∧
    busRead (busWrite (p + 0x28) 64 v s) (p + 0x28) 64 = some (BitVec.ofNat 64 (v.toNat % 2 ^ 32)) ∧
    busRead (busWrite (p + 0x30) 64 v s) (p + 0x30) 64 = some (BitVec.ofNat 64 (min (max v.toNat 3) 65535)) ∧
    busRead (busWrite (p + 0x58) 64 v s) (p + 0x58) 64 = some (BitVec.ofNat 64 (v.toNat % 2)) ∧
    busRead (busWrite (p + 0x100 + 8 * i.val) 64 v s) (p + 0x100 + 8 * i.val) 64 = some (if i = 0 then 0 else v) ∧
    busRead (busWrite (p + 0x200) 64 v s) (p + 0x200) 64 = some v ∧
    busRead (busWrite (p + 0x200) 64 v s) (p + 0x208) 64 = busRead s (p + 0x208) 64 ∧
    busRead (busWrite (p + 0x208) 64 v s) (p + 0x208) 64 = some v ∧
    busRead (busWrite (p + 0x208) 64 v s) (p + 0x200) 64 = busRead s (p + 0x200) 64

/-- 20_memory.md R102: the DMEM window, for every offset in it and every width. -/
def Obligations.DmemWindowAccess : Prop :=
  ∀ (s : State) (a width : Nat) (v : Word) (addr : Nat), a < 0x100000 → addr = s.params.base + 0x100000 + a →
    (width = 64 ∧ a % 8 = 0 ∧ a + 8 ≤ s.params.dmemBytes ∧ s.run = false →
      busRead s addr width = some (memRead s a) ∧ busWrite addr width v s = memWrite a v s) ∧
    (¬ (width = 64 ∧ a % 8 = 0 ∧ a + 8 ≤ s.params.dmemBytes ∧ s.run = false) →
      busRead s addr width = some 0 ∧ busWrite addr width v s = s)

/-- 20_memory.md R103: the IMEM window, for every offset in it and every width; a stored word reads back. That the word
stands in bits 31:0 of the model's 64-bit bus value, with zeros above on a read and the rest dropped on a write, is the
model's reading (log 21, DEDUCED): R103 says only that a 32-bit access reads and stores the 32-bit value. -/
def Obligations.ImemWindowAccess : Prop :=
  ∀ (s : State) (off width : Nat) (v : Word) (addr : Nat), off < 0x10000 → addr = s.params.base + 0x10000 + off →
    (width = 32 ∧ off % 4 = 0 ∧ off / 4 < s.params.imemWords ∧ s.run = false →
      busRead s addr width = some (BitVec.ofNat 64 (imemRead s (off / 4)).toNat) ∧
      imemRead (busWrite addr width v s) (off / 4) = BitVec.ofNat 32 v.toNat ∧
      (∀ i, i ≠ off / 4 → imemRead (busWrite addr width v s) i = imemRead s i) ∧
      busWrite addr width v s = { s with imem := (busWrite addr width v s).imem }) ∧
    (¬ (width = 32 ∧ off % 4 = 0 ∧ off / 4 < s.params.imemWords ∧ s.run = false) →
      busRead s addr width = some 0 ∧ busWrite addr width v s = s)

/-- Whose turn it is, is the model's own schedule (log 6): a host write in the list of turns does what the write does,
a host read leaves what it returns in `hostRead` (log 9), and a power-on reset (70_reset_and_hazards.md R401) sets every
register to its reset value and draws the memories anew (log 17), during a run too (R400). -/
def Obligations.OtherAgentsTakeTheirTurns : Prop :=
  ∀ (s : State) (rest : List Turn),
    (∀ addr width v, s.turns = .bus (.write addr width v) :: rest →
      step s = .next (busWrite addr width v { s with turns := rest })) ∧
    (∀ addr width v, s.turns = .bus (.read addr width) :: rest → busRead s addr width = some v →
      step s = .next { s with turns := rest, hostRead := v }) ∧
    (s.turns = .powerOn :: rest → ∃ t, step s = .next t ∧ t.turns = rest ∧ t.params = s.params ∧
      (∀ k, readX t k = 0) ∧ t.acc = 0 ∧ t.c = false ∧ (∀ j, readB t j = 0) ∧ t.pc = 0 ∧
      t.run = false ∧ t.done = false ∧ t.err = false ∧ t.ie = false ∧
      t.cause = 0 ∧ t.epc = 0 ∧ t.einfo = 0 ∧ t.kthresh.toNat = 10 ∧ t.startPc = 0 ∧ irq t = false ∧
      (∀ a, dmemByte t a = Config.powerOnDmem (s.powerOns + 1) a) ∧
      (∀ a, imemByte t a = Config.powerOnImem (s.powerOns + 1) a))

/-- The model's way of starting from a state (log 11): a well-formed instruction placed with `withFetchWord` in an idle
machine is the next one to run. -/
def Obligations.PlacedInstructionRunsNext : Prop :=
  ∀ (s : State) (i : Instr), s.run = false → s.startPc.toNat < s.params.imemWords → i.wellFormed = true →
    step (s.withFetchWord 32 (encode i).toNat) = exec i (s.withFetchWord 32 (encode i).toNat)

/-! ## Pseudo-instructions -/

/-- 30_encoding.md R137: the expansion of `LI xd, v` loads the constant and changes no other register. -/
def Obligations.LoadConstantExpansion : Prop :=
  ∀ (d : XReg) (v : Word) (s : State), d ≠ 0 →
    ∃ t, execAll (expandLi d v) s = .next t ∧ (∀ k, readX t k = if k = d then v else readX s k) ∧
      t.pc = s.pc + BitVec.ofNat 32 (expandLi d v).length ∧
      KeepsB s t ∧ KeepsAcc s t ∧ KeepsMemory s t ∧ KeepsControl s t ∧ KeepsModel s t
end

