-- ==== Sys2Proof/Laws/Encoding.lean ====
section
/-! SUPPORT. The fields of an encoded word (30_encoding.md R111): what `bits` reads back from `wordR`, `wordI` and
`wordJ`. -/

namespace Sys2Proof

theorem toNat_wordR {op a b c d : Nat} (ho : op < 256) (ha : a < 16) (hb : b < 16) (hc : c < 16) (hd : d < 16) :
    (wordR op a b c d).toNat = op * 2 ^ 24 + a * 2 ^ 20 + b * 2 ^ 16 + c * 2 ^ 12 + d * 2 ^ 8 := by
  rw [wordR, BitVec.toNat_ofNat]; omega

theorem toNat_wordI {op a b imm : Nat} (ho : op < 256) (ha : a < 16) (hb : b < 16) (hi : imm < 65536) :
    (wordI op a b imm).toNat = op * 2 ^ 24 + a * 2 ^ 20 + b * 2 ^ 16 + imm := by
  rw [wordI, BitVec.toNat_ofNat]; omega

theorem toNat_wordJ {op a imm : Nat} (ho : op < 256) (ha : a < 16) (hi : imm < 1048576) :
    (wordJ op a imm).toNat = op * 2 ^ 24 + a * 2 ^ 20 + imm := by
  rw [wordJ, BitVec.toNat_ofNat]; omega

theorem bits_op_wordR {op a b c d : Nat} (ho : op < 256) (ha : a < 16) (hb : b < 16) (hc : c < 16) (hd : d < 16) :
    bits (wordR op a b c d) 31 24 = op := by
  rw [bits, toNat_wordR ho ha hb hc hd]; omega

theorem bits_op_wordI {op a b imm : Nat} (ho : op < 256) (ha : a < 16) (hb : b < 16) (hi : imm < 65536) :
    bits (wordI op a b imm) 31 24 = op := by
  rw [bits, toNat_wordI ho ha hb hi]; omega

theorem bits_op_wordJ {op a imm : Nat} (ho : op < 256) (ha : a < 16) (hi : imm < 1048576) :
    bits (wordJ op a imm) 31 24 = op := by
  rw [bits, toNat_wordJ ho ha hi]; omega

theorem slotA_wordR {op a b c d : Nat} (ho : op < 256) (ha : a < 16) (hb : b < 16) (hc : c < 16) (hd : d < 16) :
    slotA (wordR op a b c d) = a := by
  rw [slotA, bits, toNat_wordR ho ha hb hc hd]; omega

theorem slotB_wordR {op a b c d : Nat} (ho : op < 256) (ha : a < 16) (hb : b < 16) (hc : c < 16) (hd : d < 16) :
    slotB (wordR op a b c d) = b := by
  rw [slotB, bits, toNat_wordR ho ha hb hc hd]; omega

theorem slotC_wordR {op a b c d : Nat} (ho : op < 256) (ha : a < 16) (hb : b < 16) (hc : c < 16) (hd : d < 16) :
    slotC (wordR op a b c d) = c := by
  rw [slotC, bits, toNat_wordR ho ha hb hc hd]; omega

theorem slotD_wordR {op a b c d : Nat} (ho : op < 256) (ha : a < 16) (hb : b < 16) (hc : c < 16) (hd : d < 16) :
    slotD (wordR op a b c d) = d := by
  rw [slotD, bits, toNat_wordR ho ha hb hc hd]; omega

theorem slotA_wordI {op a b imm : Nat} (ho : op < 256) (ha : a < 16) (hb : b < 16) (hi : imm < 65536) :
    slotA (wordI op a b imm) = a := by
  rw [slotA, bits, toNat_wordI ho ha hb hi]; omega

theorem slotB_wordI {op a b imm : Nat} (ho : op < 256) (ha : a < 16) (hb : b < 16) (hi : imm < 65536) :
    slotB (wordI op a b imm) = b := by
  rw [slotB, bits, toNat_wordI ho ha hb hi]; omega

theorem slotA_wordJ {op a imm : Nat} (ho : op < 256) (ha : a < 16) (hi : imm < 1048576) :
    slotA (wordJ op a imm) = a := by
  rw [slotA, bits, toNat_wordJ ho ha hi]; omega

/-- The bytes below slot D are 0 in a format R word (R113). -/
theorem bits_z_wordR {op a b c d : Nat} (ho : op < 256) (ha : a < 16) (hb : b < 16) (hc : c < 16) (hd : d < 16) :
    bits (wordR op a b c d) 7 0 = 0 := by
  rw [bits, toNat_wordR ho ha hb hc hd]; omega

/-- The low bits of a format I word are those of its immediate (R114). -/
theorem bits_imm_wordI {op a b imm : Nat} (ho : op < 256) (ha : a < 16) (hb : b < 16) (hi : imm < 65536) :
    bits (wordI op a b imm) 15 0 = imm := by
  rw [bits, toNat_wordI ho ha hb hi]; omega

/-- The low bits of a format J word are those of its immediate (R115). -/
theorem bits_imm_wordJ {op a imm : Nat} (ho : op < 256) (ha : a < 16) (hi : imm < 1048576) :
    bits (wordJ op a imm) 19 0 = imm := by
  rw [bits, toNat_wordJ ho ha hi]; omega

end Sys2Proof
end

