-- ==== Sys2Proof/Laws/State.lean ====
section
/-! SUPPORT. One lemma for each field of State and each update of Machine/Ops.lean and Machine/Memory.lean, and for each
read that an update leaves alone, so that no proof unfolds a record update. -/

namespace Sys2Proof.Machine

/-! ### writeX -/

@[simp] theorem writeX_params (i : XReg) (v : Word) (s : State) : (writeX i v s).params = s.params := rfl
@[simp] theorem writeX_x (i : XReg) (v : Word) (s : State) : (writeX i v s).x = if i = 0 then s.x else s.x.set i.val v i.isLt := rfl
@[simp] theorem writeX_b (i : XReg) (v : Word) (s : State) : (writeX i v s).b = s.b := rfl
@[simp] theorem writeX_acc (i : XReg) (v : Word) (s : State) : (writeX i v s).acc = s.acc := rfl
@[simp] theorem writeX_c (i : XReg) (v : Word) (s : State) : (writeX i v s).c = s.c := rfl
@[simp] theorem writeX_pc (i : XReg) (v : Word) (s : State) : (writeX i v s).pc = s.pc := rfl
@[simp] theorem writeX_run (i : XReg) (v : Word) (s : State) : (writeX i v s).run = s.run := rfl
@[simp] theorem writeX_done (i : XReg) (v : Word) (s : State) : (writeX i v s).done = s.done := rfl
@[simp] theorem writeX_err (i : XReg) (v : Word) (s : State) : (writeX i v s).err = s.err := rfl
@[simp] theorem writeX_ie (i : XReg) (v : Word) (s : State) : (writeX i v s).ie = s.ie := rfl
@[simp] theorem writeX_cause (i : XReg) (v : Word) (s : State) : (writeX i v s).cause = s.cause := rfl
@[simp] theorem writeX_epc (i : XReg) (v : Word) (s : State) : (writeX i v s).epc = s.epc := rfl
@[simp] theorem writeX_einfo (i : XReg) (v : Word) (s : State) : (writeX i v s).einfo = s.einfo := rfl
@[simp] theorem writeX_kthresh (i : XReg) (v : Word) (s : State) : (writeX i v s).kthresh = s.kthresh := rfl
@[simp] theorem writeX_startPc (i : XReg) (v : Word) (s : State) : (writeX i v s).startPc = s.startPc := rfl
@[simp] theorem writeX_imem (i : XReg) (v : Word) (s : State) : (writeX i v s).imem = s.imem := rfl
@[simp] theorem writeX_dmem (i : XReg) (v : Word) (s : State) : (writeX i v s).dmem = s.dmem := rfl
@[simp] theorem writeX_powerOns (i : XReg) (v : Word) (s : State) : (writeX i v s).powerOns = s.powerOns := rfl
@[simp] theorem writeX_softResets (i : XReg) (v : Word) (s : State) : (writeX i v s).softResets = s.softResets := rfl
@[simp] theorem writeX_turns (i : XReg) (v : Word) (s : State) : (writeX i v s).turns = s.turns := rfl
@[simp] theorem writeX_hostRead (i : XReg) (v : Word) (s : State) : (writeX i v s).hostRead = s.hostRead := rfl
@[simp] theorem readB_writeX (i : XReg) (v : Word) (s : State) (k : BReg) : readB (writeX i v s) k = readB s k := rfl
@[simp] theorem dmemByte_writeX (i : XReg) (v : Word) (s : State) (k : Nat) : dmemByte (writeX i v s) k = dmemByte s k := rfl
@[simp] theorem imemByte_writeX (i : XReg) (v : Word) (s : State) (k : Nat) : imemByte (writeX i v s) k = imemByte s k := rfl
@[simp] theorem imemRead_writeX (i : XReg) (v : Word) (s : State) (k : Nat) : imemRead (writeX i v s) k = imemRead s k := rfl
@[simp] theorem memRead_writeX (i : XReg) (v : Word) (s : State) (k : Nat) : memRead (writeX i v s) k = memRead s k := rfl
@[simp] theorem dmemInRange_writeX (i : XReg) (v : Word) (s : State) (k : Nat) : dmemInRange (writeX i v s) k = dmemInRange s k := rfl

/-! ### setB -/

@[simp] theorem setB_params (j : BReg) (v : Int) (s : State) : (setB j v s).params = s.params := rfl
@[simp] theorem setB_x (j : BReg) (v : Int) (s : State) : (setB j v s).x = s.x := rfl
@[simp] theorem setB_b (j : BReg) (v : Int) (s : State) : (setB j v s).b = s.b.set j.val v j.isLt := rfl
@[simp] theorem setB_acc (j : BReg) (v : Int) (s : State) : (setB j v s).acc = s.acc := rfl
@[simp] theorem setB_c (j : BReg) (v : Int) (s : State) : (setB j v s).c = s.c := rfl
@[simp] theorem setB_pc (j : BReg) (v : Int) (s : State) : (setB j v s).pc = s.pc := rfl
@[simp] theorem setB_run (j : BReg) (v : Int) (s : State) : (setB j v s).run = s.run := rfl
@[simp] theorem setB_done (j : BReg) (v : Int) (s : State) : (setB j v s).done = s.done := rfl
@[simp] theorem setB_err (j : BReg) (v : Int) (s : State) : (setB j v s).err = s.err := rfl
@[simp] theorem setB_ie (j : BReg) (v : Int) (s : State) : (setB j v s).ie = s.ie := rfl
@[simp] theorem setB_cause (j : BReg) (v : Int) (s : State) : (setB j v s).cause = s.cause := rfl
@[simp] theorem setB_epc (j : BReg) (v : Int) (s : State) : (setB j v s).epc = s.epc := rfl
@[simp] theorem setB_einfo (j : BReg) (v : Int) (s : State) : (setB j v s).einfo = s.einfo := rfl
@[simp] theorem setB_kthresh (j : BReg) (v : Int) (s : State) : (setB j v s).kthresh = s.kthresh := rfl
@[simp] theorem setB_startPc (j : BReg) (v : Int) (s : State) : (setB j v s).startPc = s.startPc := rfl
@[simp] theorem setB_imem (j : BReg) (v : Int) (s : State) : (setB j v s).imem = s.imem := rfl
@[simp] theorem setB_dmem (j : BReg) (v : Int) (s : State) : (setB j v s).dmem = s.dmem := rfl
@[simp] theorem setB_powerOns (j : BReg) (v : Int) (s : State) : (setB j v s).powerOns = s.powerOns := rfl
@[simp] theorem setB_softResets (j : BReg) (v : Int) (s : State) : (setB j v s).softResets = s.softResets := rfl
@[simp] theorem setB_turns (j : BReg) (v : Int) (s : State) : (setB j v s).turns = s.turns := rfl
@[simp] theorem setB_hostRead (j : BReg) (v : Int) (s : State) : (setB j v s).hostRead = s.hostRead := rfl
@[simp] theorem readX_setB (j : BReg) (v : Int) (s : State) (k : XReg) : readX (setB j v s) k = readX s k := rfl
@[simp] theorem dmemByte_setB (j : BReg) (v : Int) (s : State) (k : Nat) : dmemByte (setB j v s) k = dmemByte s k := rfl
@[simp] theorem imemByte_setB (j : BReg) (v : Int) (s : State) (k : Nat) : imemByte (setB j v s) k = imemByte s k := rfl
@[simp] theorem imemRead_setB (j : BReg) (v : Int) (s : State) (k : Nat) : imemRead (setB j v s) k = imemRead s k := rfl
@[simp] theorem memRead_setB (j : BReg) (v : Int) (s : State) (k : Nat) : memRead (setB j v s) k = memRead s k := rfl
@[simp] theorem dmemInRange_setB (j : BReg) (v : Int) (s : State) (k : Nat) : dmemInRange (setB j v s) k = dmemInRange s k := rfl

/-! ### setAcc -/

@[simp] theorem setAcc_params (v : Acc) (s : State) : (setAcc v s).params = s.params := rfl
@[simp] theorem setAcc_x (v : Acc) (s : State) : (setAcc v s).x = s.x := rfl
@[simp] theorem setAcc_b (v : Acc) (s : State) : (setAcc v s).b = s.b := rfl
@[simp] theorem setAcc_acc (v : Acc) (s : State) : (setAcc v s).acc = v := rfl
@[simp] theorem setAcc_c (v : Acc) (s : State) : (setAcc v s).c = s.c := rfl
@[simp] theorem setAcc_pc (v : Acc) (s : State) : (setAcc v s).pc = s.pc := rfl
@[simp] theorem setAcc_run (v : Acc) (s : State) : (setAcc v s).run = s.run := rfl
@[simp] theorem setAcc_done (v : Acc) (s : State) : (setAcc v s).done = s.done := rfl
@[simp] theorem setAcc_err (v : Acc) (s : State) : (setAcc v s).err = s.err := rfl
@[simp] theorem setAcc_ie (v : Acc) (s : State) : (setAcc v s).ie = s.ie := rfl
@[simp] theorem setAcc_cause (v : Acc) (s : State) : (setAcc v s).cause = s.cause := rfl
@[simp] theorem setAcc_epc (v : Acc) (s : State) : (setAcc v s).epc = s.epc := rfl
@[simp] theorem setAcc_einfo (v : Acc) (s : State) : (setAcc v s).einfo = s.einfo := rfl
@[simp] theorem setAcc_kthresh (v : Acc) (s : State) : (setAcc v s).kthresh = s.kthresh := rfl
@[simp] theorem setAcc_startPc (v : Acc) (s : State) : (setAcc v s).startPc = s.startPc := rfl
@[simp] theorem setAcc_imem (v : Acc) (s : State) : (setAcc v s).imem = s.imem := rfl
@[simp] theorem setAcc_dmem (v : Acc) (s : State) : (setAcc v s).dmem = s.dmem := rfl
@[simp] theorem setAcc_powerOns (v : Acc) (s : State) : (setAcc v s).powerOns = s.powerOns := rfl
@[simp] theorem setAcc_softResets (v : Acc) (s : State) : (setAcc v s).softResets = s.softResets := rfl
@[simp] theorem setAcc_turns (v : Acc) (s : State) : (setAcc v s).turns = s.turns := rfl
@[simp] theorem setAcc_hostRead (v : Acc) (s : State) : (setAcc v s).hostRead = s.hostRead := rfl
@[simp] theorem readX_setAcc (v : Acc) (s : State) (k : XReg) : readX (setAcc v s) k = readX s k := rfl
@[simp] theorem readB_setAcc (v : Acc) (s : State) (k : BReg) : readB (setAcc v s) k = readB s k := rfl
@[simp] theorem dmemByte_setAcc (v : Acc) (s : State) (k : Nat) : dmemByte (setAcc v s) k = dmemByte s k := rfl
@[simp] theorem imemByte_setAcc (v : Acc) (s : State) (k : Nat) : imemByte (setAcc v s) k = imemByte s k := rfl
@[simp] theorem imemRead_setAcc (v : Acc) (s : State) (k : Nat) : imemRead (setAcc v s) k = imemRead s k := rfl
@[simp] theorem memRead_setAcc (v : Acc) (s : State) (k : Nat) : memRead (setAcc v s) k = memRead s k := rfl
@[simp] theorem dmemInRange_setAcc (v : Acc) (s : State) (k : Nat) : dmemInRange (setAcc v s) k = dmemInRange s k := rfl

/-! ### setC -/

@[simp] theorem setC_params (v : Bool) (s : State) : (setC v s).params = s.params := rfl
@[simp] theorem setC_x (v : Bool) (s : State) : (setC v s).x = s.x := rfl
@[simp] theorem setC_b (v : Bool) (s : State) : (setC v s).b = s.b := rfl
@[simp] theorem setC_acc (v : Bool) (s : State) : (setC v s).acc = s.acc := rfl
@[simp] theorem setC_c (v : Bool) (s : State) : (setC v s).c = v := rfl
@[simp] theorem setC_pc (v : Bool) (s : State) : (setC v s).pc = s.pc := rfl
@[simp] theorem setC_run (v : Bool) (s : State) : (setC v s).run = s.run := rfl
@[simp] theorem setC_done (v : Bool) (s : State) : (setC v s).done = s.done := rfl
@[simp] theorem setC_err (v : Bool) (s : State) : (setC v s).err = s.err := rfl
@[simp] theorem setC_ie (v : Bool) (s : State) : (setC v s).ie = s.ie := rfl
@[simp] theorem setC_cause (v : Bool) (s : State) : (setC v s).cause = s.cause := rfl
@[simp] theorem setC_epc (v : Bool) (s : State) : (setC v s).epc = s.epc := rfl
@[simp] theorem setC_einfo (v : Bool) (s : State) : (setC v s).einfo = s.einfo := rfl
@[simp] theorem setC_kthresh (v : Bool) (s : State) : (setC v s).kthresh = s.kthresh := rfl
@[simp] theorem setC_startPc (v : Bool) (s : State) : (setC v s).startPc = s.startPc := rfl
@[simp] theorem setC_imem (v : Bool) (s : State) : (setC v s).imem = s.imem := rfl
@[simp] theorem setC_dmem (v : Bool) (s : State) : (setC v s).dmem = s.dmem := rfl
@[simp] theorem setC_powerOns (v : Bool) (s : State) : (setC v s).powerOns = s.powerOns := rfl
@[simp] theorem setC_softResets (v : Bool) (s : State) : (setC v s).softResets = s.softResets := rfl
@[simp] theorem setC_turns (v : Bool) (s : State) : (setC v s).turns = s.turns := rfl
@[simp] theorem setC_hostRead (v : Bool) (s : State) : (setC v s).hostRead = s.hostRead := rfl
@[simp] theorem readX_setC (v : Bool) (s : State) (k : XReg) : readX (setC v s) k = readX s k := rfl
@[simp] theorem readB_setC (v : Bool) (s : State) (k : BReg) : readB (setC v s) k = readB s k := rfl
@[simp] theorem dmemByte_setC (v : Bool) (s : State) (k : Nat) : dmemByte (setC v s) k = dmemByte s k := rfl
@[simp] theorem imemByte_setC (v : Bool) (s : State) (k : Nat) : imemByte (setC v s) k = imemByte s k := rfl
@[simp] theorem imemRead_setC (v : Bool) (s : State) (k : Nat) : imemRead (setC v s) k = imemRead s k := rfl
@[simp] theorem memRead_setC (v : Bool) (s : State) (k : Nat) : memRead (setC v s) k = memRead s k := rfl
@[simp] theorem dmemInRange_setC (v : Bool) (s : State) (k : Nat) : dmemInRange (setC v s) k = dmemInRange s k := rfl

/-! ### setPc -/

@[simp] theorem setPc_params (t : Index) (s : State) : (setPc t s).params = s.params := rfl
@[simp] theorem setPc_x (t : Index) (s : State) : (setPc t s).x = s.x := rfl
@[simp] theorem setPc_b (t : Index) (s : State) : (setPc t s).b = s.b := rfl
@[simp] theorem setPc_acc (t : Index) (s : State) : (setPc t s).acc = s.acc := rfl
@[simp] theorem setPc_c (t : Index) (s : State) : (setPc t s).c = s.c := rfl
@[simp] theorem setPc_pc (t : Index) (s : State) : (setPc t s).pc = t := rfl
@[simp] theorem setPc_run (t : Index) (s : State) : (setPc t s).run = s.run := rfl
@[simp] theorem setPc_done (t : Index) (s : State) : (setPc t s).done = s.done := rfl
@[simp] theorem setPc_err (t : Index) (s : State) : (setPc t s).err = s.err := rfl
@[simp] theorem setPc_ie (t : Index) (s : State) : (setPc t s).ie = s.ie := rfl
@[simp] theorem setPc_cause (t : Index) (s : State) : (setPc t s).cause = s.cause := rfl
@[simp] theorem setPc_epc (t : Index) (s : State) : (setPc t s).epc = s.epc := rfl
@[simp] theorem setPc_einfo (t : Index) (s : State) : (setPc t s).einfo = s.einfo := rfl
@[simp] theorem setPc_kthresh (t : Index) (s : State) : (setPc t s).kthresh = s.kthresh := rfl
@[simp] theorem setPc_startPc (t : Index) (s : State) : (setPc t s).startPc = s.startPc := rfl
@[simp] theorem setPc_imem (t : Index) (s : State) : (setPc t s).imem = s.imem := rfl
@[simp] theorem setPc_dmem (t : Index) (s : State) : (setPc t s).dmem = s.dmem := rfl
@[simp] theorem setPc_powerOns (t : Index) (s : State) : (setPc t s).powerOns = s.powerOns := rfl
@[simp] theorem setPc_softResets (t : Index) (s : State) : (setPc t s).softResets = s.softResets := rfl
@[simp] theorem setPc_turns (t : Index) (s : State) : (setPc t s).turns = s.turns := rfl
@[simp] theorem setPc_hostRead (t : Index) (s : State) : (setPc t s).hostRead = s.hostRead := rfl
@[simp] theorem readX_setPc (t : Index) (s : State) (k : XReg) : readX (setPc t s) k = readX s k := rfl
@[simp] theorem readB_setPc (t : Index) (s : State) (k : BReg) : readB (setPc t s) k = readB s k := rfl
@[simp] theorem dmemByte_setPc (t : Index) (s : State) (k : Nat) : dmemByte (setPc t s) k = dmemByte s k := rfl
@[simp] theorem imemByte_setPc (t : Index) (s : State) (k : Nat) : imemByte (setPc t s) k = imemByte s k := rfl
@[simp] theorem imemRead_setPc (t : Index) (s : State) (k : Nat) : imemRead (setPc t s) k = imemRead s k := rfl
@[simp] theorem memRead_setPc (t : Index) (s : State) (k : Nat) : memRead (setPc t s) k = memRead s k := rfl
@[simp] theorem dmemInRange_setPc (t : Index) (s : State) (k : Nat) : dmemInRange (setPc t s) k = dmemInRange s k := rfl

/-! ### retire -/

@[simp] theorem retire_params (s : State) : (retire s).params = s.params := rfl
@[simp] theorem retire_x (s : State) : (retire s).x = s.x := rfl
@[simp] theorem retire_b (s : State) : (retire s).b = s.b := rfl
@[simp] theorem retire_acc (s : State) : (retire s).acc = s.acc := rfl
@[simp] theorem retire_c (s : State) : (retire s).c = s.c := rfl
@[simp] theorem retire_pc (s : State) : (retire s).pc = s.pc + 1 := rfl
@[simp] theorem retire_run (s : State) : (retire s).run = s.run := rfl
@[simp] theorem retire_done (s : State) : (retire s).done = s.done := rfl
@[simp] theorem retire_err (s : State) : (retire s).err = s.err := rfl
@[simp] theorem retire_ie (s : State) : (retire s).ie = s.ie := rfl
@[simp] theorem retire_cause (s : State) : (retire s).cause = s.cause := rfl
@[simp] theorem retire_epc (s : State) : (retire s).epc = s.epc := rfl
@[simp] theorem retire_einfo (s : State) : (retire s).einfo = s.einfo := rfl
@[simp] theorem retire_kthresh (s : State) : (retire s).kthresh = s.kthresh := rfl
@[simp] theorem retire_startPc (s : State) : (retire s).startPc = s.startPc := rfl
@[simp] theorem retire_imem (s : State) : (retire s).imem = s.imem := rfl
@[simp] theorem retire_dmem (s : State) : (retire s).dmem = s.dmem := rfl
@[simp] theorem retire_powerOns (s : State) : (retire s).powerOns = s.powerOns := rfl
@[simp] theorem retire_softResets (s : State) : (retire s).softResets = s.softResets := rfl
@[simp] theorem retire_turns (s : State) : (retire s).turns = s.turns := rfl
@[simp] theorem retire_hostRead (s : State) : (retire s).hostRead = s.hostRead := rfl
@[simp] theorem readX_retire (s : State) (k : XReg) : readX (retire s) k = readX s k := rfl
@[simp] theorem readB_retire (s : State) (k : BReg) : readB (retire s) k = readB s k := rfl
@[simp] theorem dmemByte_retire (s : State) (k : Nat) : dmemByte (retire s) k = dmemByte s k := rfl
@[simp] theorem imemByte_retire (s : State) (k : Nat) : imemByte (retire s) k = imemByte s k := rfl
@[simp] theorem imemRead_retire (s : State) (k : Nat) : imemRead (retire s) k = imemRead s k := rfl
@[simp] theorem memRead_retire (s : State) (k : Nat) : memRead (retire s) k = memRead s k := rfl
@[simp] theorem dmemInRange_retire (s : State) (k : Nat) : dmemInRange (retire s) k = dmemInRange s k := rfl

/-! ### errorEntry -/

@[simp] theorem errorEntry_params (e : Error) (s : State) : (errorEntry e s).params = s.params := rfl
@[simp] theorem errorEntry_x (e : Error) (s : State) : (errorEntry e s).x = s.x := rfl
@[simp] theorem errorEntry_b (e : Error) (s : State) : (errorEntry e s).b = s.b := rfl
@[simp] theorem errorEntry_acc (e : Error) (s : State) : (errorEntry e s).acc = s.acc := rfl
@[simp] theorem errorEntry_c (e : Error) (s : State) : (errorEntry e s).c = s.c := rfl
@[simp] theorem errorEntry_pc (e : Error) (s : State) : (errorEntry e s).pc = s.pc := rfl
@[simp] theorem errorEntry_run (e : Error) (s : State) : (errorEntry e s).run = false := rfl
@[simp] theorem errorEntry_done (e : Error) (s : State) : (errorEntry e s).done = false := rfl
@[simp] theorem errorEntry_err (e : Error) (s : State) : (errorEntry e s).err = true := rfl
@[simp] theorem errorEntry_ie (e : Error) (s : State) : (errorEntry e s).ie = s.ie := rfl
@[simp] theorem errorEntry_cause (e : Error) (s : State) : (errorEntry e s).cause = e.cause.code := rfl
@[simp] theorem errorEntry_epc (e : Error) (s : State) : (errorEntry e s).epc = s.pc := rfl
@[simp] theorem errorEntry_einfo (e : Error) (s : State) : (errorEntry e s).einfo = e.info := rfl
@[simp] theorem errorEntry_kthresh (e : Error) (s : State) : (errorEntry e s).kthresh = s.kthresh := rfl
@[simp] theorem errorEntry_startPc (e : Error) (s : State) : (errorEntry e s).startPc = s.startPc := rfl
@[simp] theorem errorEntry_imem (e : Error) (s : State) : (errorEntry e s).imem = s.imem := rfl
@[simp] theorem errorEntry_dmem (e : Error) (s : State) : (errorEntry e s).dmem = s.dmem := rfl
@[simp] theorem errorEntry_powerOns (e : Error) (s : State) : (errorEntry e s).powerOns = s.powerOns := rfl
@[simp] theorem errorEntry_softResets (e : Error) (s : State) : (errorEntry e s).softResets = s.softResets := rfl
@[simp] theorem errorEntry_turns (e : Error) (s : State) : (errorEntry e s).turns = s.turns := rfl
@[simp] theorem errorEntry_hostRead (e : Error) (s : State) : (errorEntry e s).hostRead = s.hostRead := rfl
@[simp] theorem readX_errorEntry (e : Error) (s : State) (k : XReg) : readX (errorEntry e s) k = readX s k := rfl
@[simp] theorem readB_errorEntry (e : Error) (s : State) (k : BReg) : readB (errorEntry e s) k = readB s k := rfl
@[simp] theorem dmemByte_errorEntry (e : Error) (s : State) (k : Nat) : dmemByte (errorEntry e s) k = dmemByte s k := rfl
@[simp] theorem imemByte_errorEntry (e : Error) (s : State) (k : Nat) : imemByte (errorEntry e s) k = imemByte s k := rfl
@[simp] theorem imemRead_errorEntry (e : Error) (s : State) (k : Nat) : imemRead (errorEntry e s) k = imemRead s k := rfl
@[simp] theorem memRead_errorEntry (e : Error) (s : State) (k : Nat) : memRead (errorEntry e s) k = memRead s k := rfl
@[simp] theorem dmemInRange_errorEntry (e : Error) (s : State) (k : Nat) : dmemInRange (errorEntry e s) k = dmemInRange s k := rfl

/-! ### go -/

@[simp] theorem go_params (s : State) : (go s).params = s.params := rfl
@[simp] theorem go_x (s : State) : (go s).x = s.x := rfl
@[simp] theorem go_b (s : State) : (go s).b = s.b := rfl
@[simp] theorem go_acc (s : State) : (go s).acc = s.acc := rfl
@[simp] theorem go_c (s : State) : (go s).c = s.c := rfl
@[simp] theorem go_pc (s : State) : (go s).pc = s.startPc := rfl
@[simp] theorem go_run (s : State) : (go s).run = true := rfl
@[simp] theorem go_done (s : State) : (go s).done = false := rfl
@[simp] theorem go_err (s : State) : (go s).err = false := rfl
@[simp] theorem go_ie (s : State) : (go s).ie = s.ie := rfl
@[simp] theorem go_cause (s : State) : (go s).cause = 0 := rfl
@[simp] theorem go_epc (s : State) : (go s).epc = 0 := rfl
@[simp] theorem go_einfo (s : State) : (go s).einfo = 0 := rfl
@[simp] theorem go_kthresh (s : State) : (go s).kthresh = s.kthresh := rfl
@[simp] theorem go_startPc (s : State) : (go s).startPc = s.startPc := rfl
@[simp] theorem go_imem (s : State) : (go s).imem = s.imem := rfl
@[simp] theorem go_dmem (s : State) : (go s).dmem = s.dmem := rfl
@[simp] theorem go_powerOns (s : State) : (go s).powerOns = s.powerOns := rfl
@[simp] theorem go_softResets (s : State) : (go s).softResets = s.softResets := rfl
@[simp] theorem go_turns (s : State) : (go s).turns = s.turns := rfl
@[simp] theorem go_hostRead (s : State) : (go s).hostRead = s.hostRead := rfl
@[simp] theorem readX_go (s : State) (k : XReg) : readX (go s) k = readX s k := rfl
@[simp] theorem readB_go (s : State) (k : BReg) : readB (go s) k = readB s k := rfl
@[simp] theorem dmemByte_go (s : State) (k : Nat) : dmemByte (go s) k = dmemByte s k := rfl
@[simp] theorem imemByte_go (s : State) (k : Nat) : imemByte (go s) k = imemByte s k := rfl
@[simp] theorem imemRead_go (s : State) (k : Nat) : imemRead (go s) k = imemRead s k := rfl
@[simp] theorem memRead_go (s : State) (k : Nat) : memRead (go s) k = memRead s k := rfl
@[simp] theorem dmemInRange_go (s : State) (k : Nat) : dmemInRange (go s) k = dmemInRange s k := rfl

/-! ### clr -/

@[simp] theorem clr_params (s : State) : (clr s).params = s.params := rfl
@[simp] theorem clr_x (s : State) : (clr s).x = s.x := rfl
@[simp] theorem clr_b (s : State) : (clr s).b = s.b := rfl
@[simp] theorem clr_acc (s : State) : (clr s).acc = s.acc := rfl
@[simp] theorem clr_c (s : State) : (clr s).c = s.c := rfl
@[simp] theorem clr_pc (s : State) : (clr s).pc = s.pc := rfl
@[simp] theorem clr_run (s : State) : (clr s).run = s.run := rfl
@[simp] theorem clr_done (s : State) : (clr s).done = false := rfl
@[simp] theorem clr_err (s : State) : (clr s).err = false := rfl
@[simp] theorem clr_ie (s : State) : (clr s).ie = s.ie := rfl
@[simp] theorem clr_cause (s : State) : (clr s).cause = 0 := rfl
@[simp] theorem clr_epc (s : State) : (clr s).epc = 0 := rfl
@[simp] theorem clr_einfo (s : State) : (clr s).einfo = 0 := rfl
@[simp] theorem clr_kthresh (s : State) : (clr s).kthresh = s.kthresh := rfl
@[simp] theorem clr_startPc (s : State) : (clr s).startPc = s.startPc := rfl
@[simp] theorem clr_imem (s : State) : (clr s).imem = s.imem := rfl
@[simp] theorem clr_dmem (s : State) : (clr s).dmem = s.dmem := rfl
@[simp] theorem clr_powerOns (s : State) : (clr s).powerOns = s.powerOns := rfl
@[simp] theorem clr_softResets (s : State) : (clr s).softResets = s.softResets := rfl
@[simp] theorem clr_turns (s : State) : (clr s).turns = s.turns := rfl
@[simp] theorem clr_hostRead (s : State) : (clr s).hostRead = s.hostRead := rfl
@[simp] theorem readX_clr (s : State) (k : XReg) : readX (clr s) k = readX s k := rfl
@[simp] theorem readB_clr (s : State) (k : BReg) : readB (clr s) k = readB s k := rfl
@[simp] theorem dmemByte_clr (s : State) (k : Nat) : dmemByte (clr s) k = dmemByte s k := rfl
@[simp] theorem imemByte_clr (s : State) (k : Nat) : imemByte (clr s) k = imemByte s k := rfl
@[simp] theorem imemRead_clr (s : State) (k : Nat) : imemRead (clr s) k = imemRead s k := rfl
@[simp] theorem memRead_clr (s : State) (k : Nat) : memRead (clr s) k = memRead s k := rfl
@[simp] theorem dmemInRange_clr (s : State) (k : Nat) : dmemInRange (clr s) k = dmemInRange s k := rfl

/-! ### endRun -/

@[simp] theorem endRun_params (s : State) : (endRun s).params = s.params := rfl
@[simp] theorem endRun_x (s : State) : (endRun s).x = s.x := rfl
@[simp] theorem endRun_b (s : State) : (endRun s).b = s.b := rfl
@[simp] theorem endRun_acc (s : State) : (endRun s).acc = s.acc := rfl
@[simp] theorem endRun_c (s : State) : (endRun s).c = s.c := rfl
@[simp] theorem endRun_pc (s : State) : (endRun s).pc = s.pc := rfl
@[simp] theorem endRun_run (s : State) : (endRun s).run = false := rfl
@[simp] theorem endRun_done (s : State) : (endRun s).done = true := rfl
@[simp] theorem endRun_err (s : State) : (endRun s).err = s.err := rfl
@[simp] theorem endRun_ie (s : State) : (endRun s).ie = s.ie := rfl
@[simp] theorem endRun_cause (s : State) : (endRun s).cause = s.cause := rfl
@[simp] theorem endRun_epc (s : State) : (endRun s).epc = s.epc := rfl
@[simp] theorem endRun_einfo (s : State) : (endRun s).einfo = s.einfo := rfl
@[simp] theorem endRun_kthresh (s : State) : (endRun s).kthresh = s.kthresh := rfl
@[simp] theorem endRun_startPc (s : State) : (endRun s).startPc = s.startPc := rfl
@[simp] theorem endRun_imem (s : State) : (endRun s).imem = s.imem := rfl
@[simp] theorem endRun_dmem (s : State) : (endRun s).dmem = s.dmem := rfl
@[simp] theorem endRun_powerOns (s : State) : (endRun s).powerOns = s.powerOns := rfl
@[simp] theorem endRun_softResets (s : State) : (endRun s).softResets = s.softResets := rfl
@[simp] theorem endRun_turns (s : State) : (endRun s).turns = s.turns := rfl
@[simp] theorem endRun_hostRead (s : State) : (endRun s).hostRead = s.hostRead := rfl
@[simp] theorem readX_endRun (s : State) (k : XReg) : readX (endRun s) k = readX s k := rfl
@[simp] theorem readB_endRun (s : State) (k : BReg) : readB (endRun s) k = readB s k := rfl
@[simp] theorem dmemByte_endRun (s : State) (k : Nat) : dmemByte (endRun s) k = dmemByte s k := rfl
@[simp] theorem imemByte_endRun (s : State) (k : Nat) : imemByte (endRun s) k = imemByte s k := rfl
@[simp] theorem imemRead_endRun (s : State) (k : Nat) : imemRead (endRun s) k = imemRead s k := rfl
@[simp] theorem memRead_endRun (s : State) (k : Nat) : memRead (endRun s) k = memRead s k := rfl
@[simp] theorem dmemInRange_endRun (s : State) (k : Nat) : dmemInRange (endRun s) k = dmemInRange s k := rfl

/-! ### memWrite -/

@[simp] theorem memWrite_params (a : Nat) (v : Word) (s : State) : (memWrite a v s).params = s.params := rfl
@[simp] theorem memWrite_x (a : Nat) (v : Word) (s : State) : (memWrite a v s).x = s.x := rfl
@[simp] theorem memWrite_b (a : Nat) (v : Word) (s : State) : (memWrite a v s).b = s.b := rfl
@[simp] theorem memWrite_acc (a : Nat) (v : Word) (s : State) : (memWrite a v s).acc = s.acc := rfl
@[simp] theorem memWrite_c (a : Nat) (v : Word) (s : State) : (memWrite a v s).c = s.c := rfl
@[simp] theorem memWrite_pc (a : Nat) (v : Word) (s : State) : (memWrite a v s).pc = s.pc := rfl
@[simp] theorem memWrite_run (a : Nat) (v : Word) (s : State) : (memWrite a v s).run = s.run := rfl
@[simp] theorem memWrite_done (a : Nat) (v : Word) (s : State) : (memWrite a v s).done = s.done := rfl
@[simp] theorem memWrite_err (a : Nat) (v : Word) (s : State) : (memWrite a v s).err = s.err := rfl
@[simp] theorem memWrite_ie (a : Nat) (v : Word) (s : State) : (memWrite a v s).ie = s.ie := rfl
@[simp] theorem memWrite_cause (a : Nat) (v : Word) (s : State) : (memWrite a v s).cause = s.cause := rfl
@[simp] theorem memWrite_epc (a : Nat) (v : Word) (s : State) : (memWrite a v s).epc = s.epc := rfl
@[simp] theorem memWrite_einfo (a : Nat) (v : Word) (s : State) : (memWrite a v s).einfo = s.einfo := rfl
@[simp] theorem memWrite_kthresh (a : Nat) (v : Word) (s : State) : (memWrite a v s).kthresh = s.kthresh := rfl
@[simp] theorem memWrite_startPc (a : Nat) (v : Word) (s : State) : (memWrite a v s).startPc = s.startPc := rfl
@[simp] theorem memWrite_imem (a : Nat) (v : Word) (s : State) : (memWrite a v s).imem = s.imem := rfl
@[simp] theorem memWrite_dmem (a : Nat) (v : Word) (s : State) : (memWrite a v s).dmem = s.dmem.storeLE a 8 v.toNat := rfl
@[simp] theorem memWrite_powerOns (a : Nat) (v : Word) (s : State) : (memWrite a v s).powerOns = s.powerOns := rfl
@[simp] theorem memWrite_softResets (a : Nat) (v : Word) (s : State) : (memWrite a v s).softResets = s.softResets := rfl
@[simp] theorem memWrite_turns (a : Nat) (v : Word) (s : State) : (memWrite a v s).turns = s.turns := rfl
@[simp] theorem memWrite_hostRead (a : Nat) (v : Word) (s : State) : (memWrite a v s).hostRead = s.hostRead := rfl
@[simp] theorem readX_memWrite (a : Nat) (v : Word) (s : State) (k : XReg) : readX (memWrite a v s) k = readX s k := rfl
@[simp] theorem readB_memWrite (a : Nat) (v : Word) (s : State) (k : BReg) : readB (memWrite a v s) k = readB s k := rfl
@[simp] theorem imemByte_memWrite (a : Nat) (v : Word) (s : State) (k : Nat) : imemByte (memWrite a v s) k = imemByte s k := rfl
@[simp] theorem imemRead_memWrite (a : Nat) (v : Word) (s : State) (k : Nat) : imemRead (memWrite a v s) k = imemRead s k := rfl
@[simp] theorem dmemInRange_memWrite (a : Nat) (v : Word) (s : State) (k : Nat) : dmemInRange (memWrite a v s) k = dmemInRange s k := rfl

/-! ### imemWrite -/

@[simp] theorem imemWrite_params (i : Nat) (w : InstrWord) (s : State) : (imemWrite i w s).params = s.params := rfl
@[simp] theorem imemWrite_x (i : Nat) (w : InstrWord) (s : State) : (imemWrite i w s).x = s.x := rfl
@[simp] theorem imemWrite_b (i : Nat) (w : InstrWord) (s : State) : (imemWrite i w s).b = s.b := rfl
@[simp] theorem imemWrite_acc (i : Nat) (w : InstrWord) (s : State) : (imemWrite i w s).acc = s.acc := rfl
@[simp] theorem imemWrite_c (i : Nat) (w : InstrWord) (s : State) : (imemWrite i w s).c = s.c := rfl
@[simp] theorem imemWrite_pc (i : Nat) (w : InstrWord) (s : State) : (imemWrite i w s).pc = s.pc := rfl
@[simp] theorem imemWrite_run (i : Nat) (w : InstrWord) (s : State) : (imemWrite i w s).run = s.run := rfl
@[simp] theorem imemWrite_done (i : Nat) (w : InstrWord) (s : State) : (imemWrite i w s).done = s.done := rfl
@[simp] theorem imemWrite_err (i : Nat) (w : InstrWord) (s : State) : (imemWrite i w s).err = s.err := rfl
@[simp] theorem imemWrite_ie (i : Nat) (w : InstrWord) (s : State) : (imemWrite i w s).ie = s.ie := rfl
@[simp] theorem imemWrite_cause (i : Nat) (w : InstrWord) (s : State) : (imemWrite i w s).cause = s.cause := rfl
@[simp] theorem imemWrite_epc (i : Nat) (w : InstrWord) (s : State) : (imemWrite i w s).epc = s.epc := rfl
@[simp] theorem imemWrite_einfo (i : Nat) (w : InstrWord) (s : State) : (imemWrite i w s).einfo = s.einfo := rfl
@[simp] theorem imemWrite_kthresh (i : Nat) (w : InstrWord) (s : State) : (imemWrite i w s).kthresh = s.kthresh := rfl
@[simp] theorem imemWrite_startPc (i : Nat) (w : InstrWord) (s : State) : (imemWrite i w s).startPc = s.startPc := rfl
@[simp] theorem imemWrite_imem (i : Nat) (w : InstrWord) (s : State) : (imemWrite i w s).imem = s.imem.storeLE (4 * i) 4 w.toNat := rfl
@[simp] theorem imemWrite_dmem (i : Nat) (w : InstrWord) (s : State) : (imemWrite i w s).dmem = s.dmem := rfl
@[simp] theorem imemWrite_powerOns (i : Nat) (w : InstrWord) (s : State) : (imemWrite i w s).powerOns = s.powerOns := rfl
@[simp] theorem imemWrite_softResets (i : Nat) (w : InstrWord) (s : State) : (imemWrite i w s).softResets = s.softResets := rfl
@[simp] theorem imemWrite_turns (i : Nat) (w : InstrWord) (s : State) : (imemWrite i w s).turns = s.turns := rfl
@[simp] theorem imemWrite_hostRead (i : Nat) (w : InstrWord) (s : State) : (imemWrite i w s).hostRead = s.hostRead := rfl
@[simp] theorem readX_imemWrite (i : Nat) (w : InstrWord) (s : State) (k : XReg) : readX (imemWrite i w s) k = readX s k := rfl
@[simp] theorem readB_imemWrite (i : Nat) (w : InstrWord) (s : State) (k : BReg) : readB (imemWrite i w s) k = readB s k := rfl
@[simp] theorem dmemByte_imemWrite (i : Nat) (w : InstrWord) (s : State) (k : Nat) : dmemByte (imemWrite i w s) k = dmemByte s k := rfl
@[simp] theorem memRead_imemWrite (i : Nat) (w : InstrWord) (s : State) (k : Nat) : memRead (imemWrite i w s) k = memRead s k := rfl
@[simp] theorem dmemInRange_imemWrite (i : Nat) (w : InstrWord) (s : State) (k : Nat) : dmemInRange (imemWrite i w s) k = dmemInRange s k := rfl

end Sys2Proof.Machine
end

