-- ==== Sys2Proof/Laws/Memory.lean ====
section
/-! SUPPORT. The laws of memory: what a byte reads as after a write, and that every memory operation keeps the canonical
form and the size. -/

namespace Sys2Proof.Machine

/-! ### One byte -/

theorem lookup_store (m : Memory) (a b : Nat) (v : Byte) :
    (m.store a v).lookup b = if b = a then some v else m.lookup b := by
  induction m with
  | nil => by_cases h : a = b <;> simp [Memory.store, Memory.lookup, h, eq_comm]
  | cons cell m ih =>
    obtain ⟨k, u⟩ := cell
    simp only [Memory.store]
    split
    · by_cases h : b = a
      · simp [Memory.lookup, h]
      · simp [Memory.lookup, h, Ne.symm h]
    · split
      · next h =>
        subst h
        by_cases h' : b = a
        · simp [Memory.lookup, h']
        · simp [Memory.lookup, h', Ne.symm h']
      · next h =>
        simp only [Memory.lookup, ih]
        by_cases hk : k = b
        · subst hk; simp [Ne.symm h]
        · simp [hk]

/-! ### The canonical form and the size -/

theorem risingFrom_mono {lo lo' : Nat} (h : lo ≤ lo') :
    ∀ {m : Memory}, m.risingFrom lo' = true → m.risingFrom lo = true
  | [], _ => rfl
  | (k, _) :: _, hm => by
    simp only [Memory.risingFrom, Bool.and_eq_true, decide_eq_true_eq] at hm ⊢
    exact ⟨by omega, hm.2⟩

theorem risingFrom_store {lo a : Nat} {v : Byte} (ha : lo ≤ a) {m : Memory} (hm : m.risingFrom lo = true) :
    (m.store a v).risingFrom lo = true := by
  induction m generalizing lo with
  | nil => simp [Memory.store, Memory.risingFrom, ha]
  | cons cell m ih =>
    obtain ⟨k, u⟩ := cell
    simp only [Memory.risingFrom, Bool.and_eq_true, decide_eq_true_eq] at hm
    simp only [Memory.store]
    split
    · simp only [Memory.risingFrom, Bool.and_eq_true, decide_eq_true_eq]
      exact ⟨ha, by omega, hm.2⟩
    · split
      · next h => subst h; simp [Memory.risingFrom, ha, hm.2]
      · simp only [Memory.risingFrom, Bool.and_eq_true, decide_eq_true_eq]
        exact ⟨hm.1, ih (by omega) hm.2⟩

theorem wf_store {m : Memory} (hm : m.wf = true) (a : Nat) (v : Byte) : (m.store a v).wf = true :=
  risingFrom_store (Nat.zero_le a) hm

theorem within_store {size a : Nat} {v : Byte} (ha : a < size) {m : Memory} (hm : m.within size = true) :
    (m.store a v).within size = true := by
  induction m with
  | nil => simp [Memory.store, Memory.within, ha]
  | cons cell m ih =>
    obtain ⟨k, u⟩ := cell
    simp only [Memory.within, List.all_cons, Bool.and_eq_true, decide_eq_true_eq] at hm ih
    simp only [Memory.store]
    split
    · simp only [Memory.within, List.all_cons, Bool.and_eq_true, decide_eq_true_eq]; exact ⟨ha, hm⟩
    · split
      · simp only [Memory.within, List.all_cons, Bool.and_eq_true, decide_eq_true_eq]; exact ⟨ha, hm.2⟩
      · simp only [Memory.within, List.all_cons, Bool.and_eq_true, decide_eq_true_eq]; exact ⟨hm.1, ih hm.2⟩

theorem wf_storeLE {m : Memory} (hm : m.wf = true) (a n v : Nat) : (m.storeLE a n v).wf = true := by
  induction n generalizing m a v with
  | zero => exact hm
  | succ n ih => exact ih (wf_store hm a _) (a + 1) (v / 256)

theorem within_storeLE {size : Nat} {m : Memory} (hm : m.within size = true) (a n v : Nat) (h : a + n ≤ size) :
    (m.storeLE a n v).within size = true := by
  induction n generalizing m a v with
  | zero => exact hm
  | succ n ih => exact ih (within_store (by omega) hm) (a + 1) (v / 256) (by omega)

theorem wf_memWrite {s : State} (h : s.dmem.wf = true) (a : Nat) (v : Word) : (memWrite a v s).dmem.wf = true :=
  wf_storeLE h a 8 v.toNat

theorem wf_imemWrite {s : State} (h : s.imem.wf = true) (i : Nat) (w : InstrWord) :
    (imemWrite i w s).imem.wf = true :=
  wf_storeLE h (4 * i) 4 w.toNat

theorem wf_memWriteWords {s : State} (h : s.dmem.wf = true) (a : Nat) (ws : List Word) :
    (memWriteWords a ws s).dmem.wf = true := by
  induction ws generalizing a s with
  | nil => exact h
  | cons w ws ih => exact ih (wf_memWrite h a w) (a + 8)

theorem within_memWriteWords {size : Nat} {s : State} (h : s.dmem.within size = true) (a : Nat) (ws : List Word)
    (ha : a + 8 * ws.length ≤ size) : (memWriteWords a ws s).dmem.within size = true := by
  induction ws generalizing a s with
  | nil => exact h
  | cons w ws ih =>
    simp only [List.length_cons] at ha
    exact ih (within_storeLE h a 8 w.toNat (by omega)) (a + 8) (by omega)

theorem reset_memory_wf : State.reset.imem.wf = true ∧ State.reset.dmem.wf = true := ⟨rfl, rfl⟩

/-! ### Little-endian groups -/

/-- Every byte after a group of bytes is written. -/
theorem lookup_storeLE (m : Memory) (a n v b : Nat) :
    (m.storeLE a n v).lookup b =
      if a ≤ b ∧ b < a + n then some (BitVec.ofNat 8 (v / 256 ^ (b - a))) else m.lookup b := by
  induction n generalizing m a v with
  | zero => simp [Memory.storeLE]
  | succ n ih =>
    simp only [Memory.storeLE, ih, lookup_store]
    by_cases h : b = a
    · subst h; simp
    · by_cases h' : a + 1 ≤ b ∧ b < a + 1 + n
      · have e : b - a = (b - (a + 1)) + 1 := by omega
        rw [if_pos h', if_pos (by omega), e, pow_succ', Nat.div_div_eq_div_mul]
      · rw [if_neg h', if_neg h, if_neg (by omega)]

/-- A byte of DMEM after `MemWrite` (20_memory.md R84). -/
theorem dmemByte_memWrite (s : State) (a b : Nat) (v : Word) :
    dmemByte (memWrite a v s) b =
      if a ≤ b ∧ b < a + 8 then BitVec.ofNat 8 (v.toNat / 256 ^ (b - a)) else dmemByte s b := by
  simp only [dmemByte, memWrite, lookup_storeLE]
  split <;> rfl

/-- A byte of IMEM after the host stores a word (20_memory.md R103). -/
theorem imemByte_imemWrite (s : State) (i b : Nat) (w : InstrWord) :
    imemByte (imemWrite i w s) b =
      if 4 * i ≤ b ∧ b < 4 * i + 4 then BitVec.ofNat 8 (w.toNat / 256 ^ (b - 4 * i)) else imemByte s b := by
  simp only [imemByte, imemWrite, lookup_storeLE]
  split <;> rfl

/-- Bytes of an address range outside the words written are as before. -/
theorem dmemByte_memWriteWords_outside (s : State) (a b : Nat) (ws : List Word)
    (h : b < a ∨ a + 8 * ws.length ≤ b) : dmemByte (memWriteWords a ws s) b = dmemByte s b := by
  induction ws generalizing a s with
  | nil => rfl
  | cons w ws ih =>
    simp only [List.length_cons] at h
    rw [memWriteWords, ih _ _ (by omega), dmemByte_memWrite, if_neg (by omega)]

/-- A group reads the same through two reads that agree on its bytes. -/
theorem loadLE_congr {f g : Nat → Byte} {a n : Nat} (h : ∀ b, a ≤ b → b < a + n → f b = g b) :
    loadLE f a n = loadLE g a n := by
  induction n generalizing a with
  | zero => rfl
  | succ n ih =>
    rw [loadLE, loadLE, h a (by omega) (by omega), ih fun b h1 h2 => h b (by omega) (by omega)]

/-- A group whose bytes are those of a number is that number, as far as it has bytes. -/
theorem loadLE_bytes (f : Nat → Byte) (a n v : Nat)
    (h : ∀ k, k < n → f (a + k) = BitVec.ofNat 8 (v / 256 ^ k)) : loadLE f a n = v % 256 ^ n := by
  induction n generalizing a v with
  | zero => simp [loadLE, Nat.mod_one]
  | succ n ih =>
    have h0 := h 0 (by omega)
    have hrest := ih (a + 1) (v / 256) fun k hk => by
      rw [Nat.div_div_eq_div_mul, ← pow_succ', ← h (k + 1) (by omega)]; congr 1; omega
    simp only [Nat.add_zero, pow_zero, Nat.div_one] at h0
    rw [loadLE, hrest, h0, pow_succ', Nat.mod_mul]
    simp

/-! ### Words written one after another -/

theorem memWriteWords_keeps (a : Nat) (ws : List Word) (s : State) :
    memWriteWords a ws s = { s with dmem := (memWriteWords a ws s).dmem } := by
  induction ws generalizing a s with
  | nil => rfl
  | cons w ws ih => rw [memWriteWords, ih]; rfl

theorem length_memReadWords (s : State) (a n : Nat) : (memReadWords s a n).length = n := by
  induction n generalizing a with
  | zero => rfl
  | succ n ih => simp [memReadWords, ih]

/-- R88: the words from `a` on are all in range, or the first one that is not is named. -/
theorem firstOutOfRange_spec (s : State) (a n : Nat) :
    match firstOutOfRange s a n with
    | none => ∀ k, k < n → dmemInRange s (a + 8 * k) = true
    | some b => ∃ k, k < n ∧ b = a + 8 * k ∧ dmemInRange s b = false ∧ ∀ j, j < k → dmemInRange s (a + 8 * j) = true := by
  induction n generalizing a with
  | zero => simp [firstOutOfRange]
  | succ n ih =>
    by_cases h : dmemInRange s a = true
    · have := ih (a + 8)
      simp only [firstOutOfRange, h, if_true]
      split at this
      · rintro (_ | k) hk
        · simpa using h
        · have := this k (by omega); rwa [show a + 8 + 8 * k = a + 8 * (k + 1) by ring] at this
      · next b _ =>
        obtain ⟨k, hk, hb, hr, hj⟩ := this
        refine ⟨k + 1, by omega, by omega, hr, ?_⟩
        rintro (_ | j) hjk
        · simpa using h
        · have := hj j (by omega); rwa [show a + 8 + 8 * j = a + 8 * (j + 1) by ring] at this
    · simp only [firstOutOfRange, h]
      exact ⟨0, by omega, by omega, by simpa using h, by omega⟩

end Sys2Proof.Machine
end

