-- ==== Sys2Proof/Laws/Ops.lean ====
section
/-! SUPPORT. For each shared operation of Machine/Ops.lean, what it can do. -/

namespace Sys2Proof.Machine

/-! ### Registers -/

@[simp] theorem readX_zero (s : State) : readX s 0 = 0 := rfl

/-- A register after a write: the value, but x0 stays 0 (10_state.md R32). -/
theorem readX_writeX (s : State) (i k : XReg) (v : Word) :
    readX (writeX i v s) k = if k = i ∧ k ≠ 0 then v else readX s k := by
  by_cases hk : k = 0
  · simp [hk]
  · by_cases hi : i = 0
    · subst hi; simp [readX, hk]
    · by_cases h : k = i
      · subst h; simp [readX, hk]
      · have : i.val ≠ k.val := fun e => h (Fin.ext e.symm)
        simp [readX, hk, hi, h, this]

/-- A big register after a store. -/
theorem readB_setB (s : State) (j k : BReg) (v : Int) :
    readB (setB j v s) k = if k = j then v else readB s k := by
  by_cases h : k = j
  · subst h; simp [readB]
  · have : j.val ≠ k.val := fun e => h (Fin.ext e.symm)
    simp [readB, h, this]

/-! ### Errors -/

/-- Raising an error answers exactly the error entry (60_exceptions.md R365). -/
theorem raise_eq (e : Error) (s : State) : raise e s = .next (errorEntry e s) := rfl

/-! ### Writing a big register -/

theorem writeBig_fits {d : BReg} {v : Int} {s : State} (h : len v ≤ s.params.lmax) :
    writeBig d v s = .next (retire (setB d v s)) := by
  rw [writeBig, if_neg (by omega)]

theorem writeBig_over {d : BReg} {v : Int} {s : State} (h : s.params.lmax < len v) :
    writeBig d v s = .next (errorEntry ⟨.capacityError, BitVec.ofNat 64 (len v)⟩ s) := by
  rw [writeBig, if_pos h, raise_eq]

/-- If a big write answers a next state, the value fits and is stored, or it does not and the error is entered. -/
theorem writeBig_cases {d : BReg} {v : Int} {s t : State} (h : writeBig d v s = .next t) :
    (len v ≤ s.params.lmax ∧ t = retire (setB d v s)) ∨
    (s.params.lmax < len v ∧ t = errorEntry ⟨.capacityError, BitVec.ofNat 64 (len v)⟩ s) := by
  by_cases hl : s.params.lmax < len v
  · rw [writeBig_over hl] at h; exact .inr ⟨hl, by injection h with h; exact h.symm⟩
  · rw [writeBig_fits (by omega)] at h; exact .inl ⟨by omega, by injection h with h; exact h.symm⟩

theorem writeBigUnless_none {d : BReg} {v : Unit → Int} {s : State} :
    writeBigUnless none d v s = writeBig d (v ()) s := rfl

theorem writeBigUnless_some {e : Error} {d : BReg} {v : Unit → Int} {s : State} :
    writeBigUnless (some e) d v s = .next (errorEntry e s) := rfl

/-- If a checked big write answers a next state, a check failed and its error is entered, or the write happened. -/
theorem writeBigUnless_cases {c : Option Error} {d : BReg} {v : Unit → Int} {s t : State}
    (h : writeBigUnless c d v s = .next t) :
    (∃ e, c = some e ∧ t = errorEntry e s) ∨ (c = none ∧ writeBig d (v ()) s = .next t) := by
  cases c with
  | none => exact .inr ⟨rfl, h⟩
  | some e => rw [writeBigUnless_some] at h; exact .inl ⟨e, rfl, by injection h with h; exact h.symm⟩

/-! ### Checks -/

theorem divisorError_none_iff {m : Int} : divisorError m = none ↔ m ≠ 0 := by simp [divisorError]

theorem modulusError_none_iff {m : Int} : modulusError m = none ↔ 0 < m := by
  rw [modulusError]
  split
  · next h => simp [h]
  · split
    · simp; omega
    · simp; omega

theorem modulusError_eq_none {m : Int} (h : 0 < m) : modulusError m = none := modulusError_none_iff.2 h

theorem exponentError_none_iff {n m : Int} : exponentError n m = none ↔ 0 < m ∧ 0 ≤ n := by
  rw [exponentError]
  split
  · next e he =>
    have : ¬ 0 < m := fun h => by simp [modulusError_eq_none h] at he
    simp [this]
  · next he => simp [modulusError_none_iff.1 he]

theorem montgomeryError_none_iff {m : Int} : montgomeryError m = none ↔ 0 < m ∧ Int.gcd m 10 = 1 := by
  rw [montgomeryError]
  split
  · next e he =>
    have : ¬ 0 < m := fun h => by simp [modulusError_eq_none h] at he
    simp [this]
  · next he => simp [modulusError_none_iff.1 he]

/-- 20_memory.md R87, R88: a one-word access passes its checks exactly at an aligned address in range. -/
theorem wordError_none_iff {s : State} {ea : Word} :
    wordError s ea = none ↔ ea.toNat % 8 = 0 ∧ ea.toNat + 8 ≤ s.params.dmemBytes := by
  rw [wordError]
  split
  · next h => simp [h]
  · next h =>
    split
    · next h' => simp [dmemInRange] at h'; simp; omega
    · next h' => simp [dmemInRange] at h'; simp; omega

/-- 10_state.md R41: the assigned CSR numbers are 0 to 10. -/
theorem csrRead_isSome_iff {s : State} {n : Nat} : (csrRead s n).isSome = true ↔ n ≤ 10 := by
  constructor
  · intro h
    by_contra hn
    rw [csrRead] at h
    · simp at h
    all_goals omega
  · intro h
    interval_cases n <;> rfl

/-- 10_state.md R41: the kernel writes FLAGS and KTHRESH, nothing else. -/
theorem csrWrite_cases {s t : State} {v : Word} {n : Nat} (h : csrWrite s v n = some t) :
    (n = 5 ∧ t = { s with c := flagsBit v }) ∨ (n = 6 ∧ t = { s with kthresh := kthreshClamp v }) := by
  unfold csrWrite at h
  split at h
  · injection h with h; exact .inl ⟨rfl, h.symm⟩
  · injection h with h; exact .inr ⟨rfl, h.symm⟩
  · cases h

/-- 10_state.md R48: what KTHRESH stores is a legal threshold. -/
theorem kthreshClamp_legal (v : Word) : (kthreshClamp v).toNat = min (max v.toNat 3) 65535 := by
  rw [kthreshClamp, BitVec.toNat_ofNat, Nat.mod_eq_of_lt (by omega)]

/-! ### Limbs -/

/-- 00_scope.md R10: the limb base is 10^9. -/
theorem limbBase_eq : limbBase = 10 ^ 9 := by norm_num [limbBase]

theorem limbBase_pos : 0 < limbBase := by norm_num [limbBase]

@[simp] theorem ofLimbs_nil : ofLimbs [] = 0 := rfl

theorem ofLimbs_cons (l : Nat) (ls : List Nat) : ofLimbs (l :: ls) = l + limbBase * ofLimbs ls := rfl

/-- A limb of the canonical form is below the limb base (00_scope.md R13). -/
theorem limb_lt (v : Int) (i : Nat) : limb v i < limbBase := Nat.mod_lt _ limbBase_pos

@[simp] theorem length_limbs (v : Int) : (limbs v).length = len v := by simp [limbs]

/-! ### Images -/

/-- If an image loads, every check of 45_loadstore.md R294 passed and the value is that of its words. -/
theorem loadImage_ok {s : State} {ea : Word} {v : Int} (h : loadImage s ea = .ok v) :
    let hd := memRead s ea.toNat
    let ls := memReadWords s (ea.toNat + 8) (headerCount hd)
    wordError s ea = none ∧ headerReserved hd = 0 ∧ headerCount hd ≠ 0 ∧ headerCount hd ≤ s.params.lmax ∧
    firstOutOfRange s (ea.toNat + 8) (headerCount hd) = none ∧ firstBadLimb (ea.toNat + 8) ls = none ∧
    v = imageValue (headerNegative hd) ls := by
  unfold loadImage at h
  split at h
  · cases h
  · next hw =>
    dsimp only at h
    split at h
    · cases h
    · next hf =>
      split at h
      · cases h
      · next hc =>
        split at h
        · cases h
        · next hr =>
          split at h
          · cases h
          · next hb =>
            injection h with h
            refine ⟨hw, ?_, ?_, ?_, hr, hb, h.symm⟩ <;> omega

/-- If an image does not load, the error is one of the four of 60_exceptions.md R362. -/
theorem loadImage_error {s : State} {ea : Word} {e : Error} (h : loadImage s ea = .error e) :
    e.cause = .misalignedAccess ∨ e.cause = .accessFault ∨ e.cause = .formatError ∨ e.cause = .capacityError := by
  unfold loadImage at h
  split at h
  · next e' hw =>
    injection h with h
    subst h
    rw [wordError] at hw
    split at hw
    · injection hw with hw; subst hw; exact .inl rfl
    · split at hw
      · injection hw with hw; subst hw; exact .inr (.inl rfl)
      · cases hw
  · dsimp only at h
    split at h
    · injection h with h; subst h; exact .inr (.inr (.inl rfl))
    · split at h
      · injection h with h; subst h; exact .inr (.inr (.inr rfl))
      · split at h
        · injection h with h; subst h; exact .inr (.inl rfl)
        · split at h
          · injection h with h; subst h; exact .inr (.inr (.inl rfl))
          · cases h

/-- Every limb word before a bad one, or every one if there is none, is below 10^9. -/
theorem firstBadLimb_none_iff (a : Nat) (ls : List Word) :
    firstBadLimb a ls = none ↔ ∀ l ∈ ls, l.toNat < limbBase := by
  induction ls generalizing a with
  | nil => simp [firstBadLimb]
  | cons l ls ih =>
    rw [firstBadLimb]
    split
    · next h => simp; omega
    · next h => simp [ih]; omega

/-- 20_memory.md R91: a canonical image has a header and `len(v)` limbs. -/
theorem length_imageWords (v : Int) : (imageWords v).length = len v + 1 := by simp [imageWords, limbs]

end Sys2Proof.Machine
end

