-- ==== Sys2Proof/Laws/PerInstr.lean ====
section
/-! SUPPORT. Statements about every instruction, one lemma for each constructor. -/

namespace Sys2Proof.Laws.EncodeOpcode

/-- The opcode of a well-formed instruction's word finds the row of the instruction's own mnemonic (30_encoding.md
R118). -/
def Statement (i : Instr) : Prop :=
  i.wellFormed = true → ∃ r, findRow (bits (encode i) 31 24) = some r ∧ r.mnemonic = i.mnemonic

theorem halt : Statement (.halt) := fun _ => by
  rw [show bits (encode (.halt)) 31 24 = 0x01 from bits_op_wordR (by omega) (by omega) (by omega) (by omega) (by omega)]
  exact ⟨_, rfl, rfl⟩

theorem nop : Statement (.nop) := fun _ => by
  rw [show bits (encode (.nop)) 31 24 = 0x02 from bits_op_wordR (by omega) (by omega) (by omega) (by omega) (by omega)]
  exact ⟨_, rfl, rfl⟩

theorem csrr (xd : XReg) (csr : Nat) : Statement (.csrr xd csr) := fun h => by
  rw [show bits (encode (.csrr xd csr)) 31 24 = 0x03 from bits_op_wordI (by omega) (by omega) (by omega) (by simp [Instr.wellFormed, csrOk] at h; omega)]
  exact ⟨_, rfl, rfl⟩

theorem csrw (xs : XReg) (csr : Nat) : Statement (.csrw xs csr) := fun h => by
  rw [show bits (encode (.csrw xs csr)) 31 24 = 0x04 from bits_op_wordI (by omega) (by omega) (by omega) (by simp [Instr.wellFormed, csrOk] at h; omega)]
  exact ⟨_, rfl, rfl⟩

theorem jal (xd : XReg) (off20 : BitVec 20) : Statement (.jal xd off20) := fun _ => by
  rw [show bits (encode (.jal xd off20)) 31 24 = 0x08 from bits_op_wordJ (by omega) (by omega) (by omega)]
  exact ⟨_, rfl, rfl⟩

theorem jalr (xd : XReg) (xs : XReg) (s16 : BitVec 16) : Statement (.jalr xd xs s16) := fun _ => by
  rw [show bits (encode (.jalr xd xs s16)) 31 24 = 0x09 from bits_op_wordI (by omega) (by omega) (by omega) (by omega)]
  exact ⟨_, rfl, rfl⟩

theorem beq (xa : XReg) (xb : XReg) (off16 : BitVec 16) : Statement (.beq xa xb off16) := fun _ => by
  rw [show bits (encode (.beq xa xb off16)) 31 24 = 0x0A from bits_op_wordI (by omega) (by omega) (by omega) (by omega)]
  exact ⟨_, rfl, rfl⟩

theorem bne (xa : XReg) (xb : XReg) (off16 : BitVec 16) : Statement (.bne xa xb off16) := fun _ => by
  rw [show bits (encode (.bne xa xb off16)) 31 24 = 0x0B from bits_op_wordI (by omega) (by omega) (by omega) (by omega)]
  exact ⟨_, rfl, rfl⟩

theorem blt (xa : XReg) (xb : XReg) (off16 : BitVec 16) : Statement (.blt xa xb off16) := fun _ => by
  rw [show bits (encode (.blt xa xb off16)) 31 24 = 0x0C from bits_op_wordI (by omega) (by omega) (by omega) (by omega)]
  exact ⟨_, rfl, rfl⟩

theorem bge (xa : XReg) (xb : XReg) (off16 : BitVec 16) : Statement (.bge xa xb off16) := fun _ => by
  rw [show bits (encode (.bge xa xb off16)) 31 24 = 0x0D from bits_op_wordI (by omega) (by omega) (by omega) (by omega)]
  exact ⟨_, rfl, rfl⟩

theorem bltu (xa : XReg) (xb : XReg) (off16 : BitVec 16) : Statement (.bltu xa xb off16) := fun _ => by
  rw [show bits (encode (.bltu xa xb off16)) 31 24 = 0x0E from bits_op_wordI (by omega) (by omega) (by omega) (by omega)]
  exact ⟨_, rfl, rfl⟩

theorem bgeu (xa : XReg) (xb : XReg) (off16 : BitVec 16) : Statement (.bgeu xa xb off16) := fun _ => by
  rw [show bits (encode (.bgeu xa xb off16)) 31 24 = 0x0F from bits_op_wordI (by omega) (by omega) (by omega) (by omega)]
  exact ⟨_, rfl, rfl⟩

theorem add (xd : XReg) (xa : XReg) (xb : XReg) : Statement (.add xd xa xb) := fun _ => by
  rw [show bits (encode (.add xd xa xb)) 31 24 = 0x10 from bits_op_wordR (by omega) (by omega) (by omega) (by omega) (by omega)]
  exact ⟨_, rfl, rfl⟩

theorem sub (xd : XReg) (xa : XReg) (xb : XReg) : Statement (.sub xd xa xb) := fun _ => by
  rw [show bits (encode (.sub xd xa xb)) 31 24 = 0x11 from bits_op_wordR (by omega) (by omega) (by omega) (by omega) (by omega)]
  exact ⟨_, rfl, rfl⟩

theorem and (xd : XReg) (xa : XReg) (xb : XReg) : Statement (.and xd xa xb) := fun _ => by
  rw [show bits (encode (.and xd xa xb)) 31 24 = 0x12 from bits_op_wordR (by omega) (by omega) (by omega) (by omega) (by omega)]
  exact ⟨_, rfl, rfl⟩

theorem or (xd : XReg) (xa : XReg) (xb : XReg) : Statement (.or xd xa xb) := fun _ => by
  rw [show bits (encode (.or xd xa xb)) 31 24 = 0x13 from bits_op_wordR (by omega) (by omega) (by omega) (by omega) (by omega)]
  exact ⟨_, rfl, rfl⟩

theorem xor (xd : XReg) (xa : XReg) (xb : XReg) : Statement (.xor xd xa xb) := fun _ => by
  rw [show bits (encode (.xor xd xa xb)) 31 24 = 0x14 from bits_op_wordR (by omega) (by omega) (by omega) (by omega) (by omega)]
  exact ⟨_, rfl, rfl⟩

theorem sll (xd : XReg) (xa : XReg) (xb : XReg) : Statement (.sll xd xa xb) := fun _ => by
  rw [show bits (encode (.sll xd xa xb)) 31 24 = 0x15 from bits_op_wordR (by omega) (by omega) (by omega) (by omega) (by omega)]
  exact ⟨_, rfl, rfl⟩

theorem srl (xd : XReg) (xa : XReg) (xb : XReg) : Statement (.srl xd xa xb) := fun _ => by
  rw [show bits (encode (.srl xd xa xb)) 31 24 = 0x16 from bits_op_wordR (by omega) (by omega) (by omega) (by omega) (by omega)]
  exact ⟨_, rfl, rfl⟩

theorem sltu (xd : XReg) (xa : XReg) (xb : XReg) : Statement (.sltu xd xa xb) := fun _ => by
  rw [show bits (encode (.sltu xd xa xb)) 31 24 = 0x17 from bits_op_wordR (by omega) (by omega) (by omega) (by omega) (by omega)]
  exact ⟨_, rfl, rfl⟩

theorem addi (xd : XReg) (xa : XReg) (s16 : BitVec 16) : Statement (.addi xd xa s16) := fun _ => by
  rw [show bits (encode (.addi xd xa s16)) 31 24 = 0x18 from bits_op_wordI (by omega) (by omega) (by omega) (by omega)]
  exact ⟨_, rfl, rfl⟩

theorem ori (xd : XReg) (xa : XReg) (z16 : BitVec 16) : Statement (.ori xd xa z16) := fun _ => by
  rw [show bits (encode (.ori xd xa z16)) 31 24 = 0x19 from bits_op_wordI (by omega) (by omega) (by omega) (by omega)]
  exact ⟨_, rfl, rfl⟩

theorem slli (xd : XReg) (xa : XReg) (sh : Nat) : Statement (.slli xd xa sh) := fun h => by
  rw [show bits (encode (.slli xd xa sh)) 31 24 = 0x1A from bits_op_wordI (by omega) (by omega) (by omega) (by simp [Instr.wellFormed, shiftOk] at h; omega)]
  exact ⟨_, rfl, rfl⟩

theorem srli (xd : XReg) (xa : XReg) (sh : Nat) : Statement (.srli xd xa sh) := fun h => by
  rw [show bits (encode (.srli xd xa sh)) 31 24 = 0x1B from bits_op_wordI (by omega) (by omega) (by omega) (by simp [Instr.wellFormed, shiftOk] at h; omega)]
  exact ⟨_, rfl, rfl⟩

theorem andi (xd : XReg) (xa : XReg) (z16 : BitVec 16) : Statement (.andi xd xa z16) := fun _ => by
  rw [show bits (encode (.andi xd xa z16)) 31 24 = 0x1C from bits_op_wordI (by omega) (by omega) (by omega) (by omega)]
  exact ⟨_, rfl, rfl⟩

theorem mullo (xd : XReg) (xa : XReg) (xb : XReg) : Statement (.mullo xd xa xb) := fun _ => by
  rw [show bits (encode (.mullo xd xa xb)) 31 24 = 0x20 from bits_op_wordR (by omega) (by omega) (by omega) (by omega) (by omega)]
  exact ⟨_, rfl, rfl⟩

theorem mulhu (xd : XReg) (xa : XReg) (xb : XReg) : Statement (.mulhu xd xa xb) := fun _ => by
  rw [show bits (encode (.mulhu xd xa xb)) 31 24 = 0x21 from bits_op_wordR (by omega) (by omega) (by omega) (by omega) (by omega)]
  exact ⟨_, rfl, rfl⟩

theorem mul128 (xa : XReg) (xb : XReg) : Statement (.mul128 xa xb) := fun _ => by
  rw [show bits (encode (.mul128 xa xb)) 31 24 = 0x22 from bits_op_wordR (by omega) (by omega) (by omega) (by omega) (by omega)]
  exact ⟨_, rfl, rfl⟩

theorem mac128 (xa : XReg) (xb : XReg) : Statement (.mac128 xa xb) := fun _ => by
  rw [show bits (encode (.mac128 xa xb)) 31 24 = 0x23 from bits_op_wordR (by omega) (by omega) (by omega) (by omega) (by omega)]
  exact ⟨_, rfl, rfl⟩

theorem accadd (xa : XReg) : Statement (.accadd xa) := fun _ => by
  rw [show bits (encode (.accadd xa)) 31 24 = 0x24 from bits_op_wordR (by omega) (by omega) (by omega) (by omega) (by omega)]
  exact ⟨_, rfl, rfl⟩

theorem accset (xa : XReg) (xb : XReg) : Statement (.accset xa xb) := fun _ => by
  rw [show bits (encode (.accset xa xb)) 31 24 = 0x25 from bits_op_wordR (by omega) (by omega) (by omega) (by omega) (by omega)]
  exact ⟨_, rfl, rfl⟩

theorem acclo (xd : XReg) : Statement (.acclo xd) := fun _ => by
  rw [show bits (encode (.acclo xd)) 31 24 = 0x26 from bits_op_wordR (by omega) (by omega) (by omega) (by omega) (by omega)]
  exact ⟨_, rfl, rfl⟩

theorem acchi (xd : XReg) : Statement (.acchi xd) := fun _ => by
  rw [show bits (encode (.acchi xd)) 31 24 = 0x27 from bits_op_wordR (by omega) (by omega) (by omega) (by omega) (by omega)]
  exact ⟨_, rfl, rfl⟩

theorem accnorm (xd : XReg) : Statement (.accnorm xd) := fun _ => by
  rw [show bits (encode (.accnorm xd)) 31 24 = 0x28 from bits_op_wordR (by omega) (by omega) (by omega) (by omega) (by omega)]
  exact ⟨_, rfl, rfl⟩

theorem accpop (xd : XReg) : Statement (.accpop xd) := fun _ => by
  rw [show bits (encode (.accpop xd)) 31 24 = 0x29 from bits_op_wordR (by omega) (by omega) (by omega) (by omega) (by omega)]
  exact ⟨_, rfl, rfl⟩

theorem badd (bd : BReg) (ba : BReg) (bb : BReg) : Statement (.badd bd ba bb) := fun _ => by
  rw [show bits (encode (.badd bd ba bb)) 31 24 = 0x30 from bits_op_wordR (by omega) (by omega) (by omega) (by omega) (by omega)]
  exact ⟨_, rfl, rfl⟩

theorem bsub (bd : BReg) (ba : BReg) (bb : BReg) : Statement (.bsub bd ba bb) := fun _ => by
  rw [show bits (encode (.bsub bd ba bb)) 31 24 = 0x31 from bits_op_wordR (by omega) (by omega) (by omega) (by omega) (by omega)]
  exact ⟨_, rfl, rfl⟩

theorem bneg (bd : BReg) (ba : BReg) : Statement (.bneg bd ba) := fun _ => by
  rw [show bits (encode (.bneg bd ba)) 31 24 = 0x32 from bits_op_wordR (by omega) (by omega) (by omega) (by omega) (by omega)]
  exact ⟨_, rfl, rfl⟩

theorem bmul (bd : BReg) (ba : BReg) (bb : BReg) : Statement (.bmul bd ba bb) := fun _ => by
  rw [show bits (encode (.bmul bd ba bb)) 31 24 = 0x33 from bits_op_wordR (by omega) (by omega) (by omega) (by omega) (by omega)]
  exact ⟨_, rfl, rfl⟩

theorem kmul (bd : BReg) (ba : BReg) (bb : BReg) : Statement (.kmul bd ba bb) := fun _ => by
  rw [show bits (encode (.kmul bd ba bb)) 31 24 = 0x34 from bits_op_wordR (by omega) (by omega) (by omega) (by omega) (by omega)]
  exact ⟨_, rfl, rfl⟩

theorem bdiv (bd : BReg) (ba : BReg) (bb : BReg) : Statement (.bdiv bd ba bb) := fun _ => by
  rw [show bits (encode (.bdiv bd ba bb)) 31 24 = 0x35 from bits_op_wordR (by omega) (by omega) (by omega) (by omega) (by omega)]
  exact ⟨_, rfl, rfl⟩

theorem brem (bd : BReg) (ba : BReg) (bb : BReg) : Statement (.brem bd ba bb) := fun _ => by
  rw [show bits (encode (.brem bd ba bb)) 31 24 = 0x36 from bits_op_wordR (by omega) (by omega) (by omega) (by omega) (by omega)]
  exact ⟨_, rfl, rfl⟩

theorem bcmp (xd : XReg) (ba : BReg) (bb : BReg) : Statement (.bcmp xd ba bb) := fun _ => by
  rw [show bits (encode (.bcmp xd ba bb)) 31 24 = 0x37 from bits_op_wordR (by omega) (by omega) (by omega) (by omega) (by omega)]
  exact ⟨_, rfl, rfl⟩

theorem bmov (bd : BReg) (ba : BReg) : Statement (.bmov bd ba) := fun _ => by
  rw [show bits (encode (.bmov bd ba)) 31 24 = 0x38 from bits_op_wordR (by omega) (by omega) (by omega) (by omega) (by omega)]
  exact ⟨_, rfl, rfl⟩

theorem bfromx (bd : BReg) (xs : XReg) : Statement (.bfromx bd xs) := fun _ => by
  rw [show bits (encode (.bfromx bd xs)) 31 24 = 0x39 from bits_op_wordR (by omega) (by omega) (by omega) (by omega) (by omega)]
  exact ⟨_, rfl, rfl⟩

theorem bli (bd : BReg) (s16 : BitVec 16) : Statement (.bli bd s16) := fun _ => by
  rw [show bits (encode (.bli bd s16)) 31 24 = 0x3A from bits_op_wordI (by omega) (by omega) (by omega) (by omega)]
  exact ⟨_, rfl, rfl⟩

theorem blen (xd : XReg) (ba : BReg) : Statement (.blen xd ba) := fun _ => by
  rw [show bits (encode (.blen xd ba)) 31 24 = 0x3B from bits_op_wordR (by omega) (by omega) (by omega) (by omega) (by omega)]
  exact ⟨_, rfl, rfl⟩

theorem blimb (xd : XReg) (ba : BReg) (xs : XReg) : Statement (.blimb xd ba xs) := fun _ => by
  rw [show bits (encode (.blimb xd ba xs)) 31 24 = 0x3C from bits_op_wordR (by omega) (by omega) (by omega) (by omega) (by omega)]
  exact ⟨_, rfl, rfl⟩

theorem bsgn (xd : XReg) (ba : BReg) : Statement (.bsgn xd ba) := fun _ => by
  rw [show bits (encode (.bsgn xd ba)) 31 24 = 0x3D from bits_op_wordR (by omega) (by omega) (by omega) (by omega) (by omega)]
  exact ⟨_, rfl, rfl⟩

theorem mmod (bd : BReg) (ba : BReg) (bm : BReg) : Statement (.mmod bd ba bm) := fun _ => by
  rw [show bits (encode (.mmod bd ba bm)) 31 24 = 0x40 from bits_op_wordR (by omega) (by omega) (by omega) (by omega) (by omega)]
  exact ⟨_, rfl, rfl⟩

theorem madd (bd : BReg) (ba : BReg) (bb : BReg) (bm : BReg) : Statement (.madd bd ba bb bm) := fun _ => by
  rw [show bits (encode (.madd bd ba bb bm)) 31 24 = 0x41 from bits_op_wordR (by omega) (by omega) (by omega) (by omega) (by omega)]
  exact ⟨_, rfl, rfl⟩

theorem msub (bd : BReg) (ba : BReg) (bb : BReg) (bm : BReg) : Statement (.msub bd ba bb bm) := fun _ => by
  rw [show bits (encode (.msub bd ba bb bm)) 31 24 = 0x42 from bits_op_wordR (by omega) (by omega) (by omega) (by omega) (by omega)]
  exact ⟨_, rfl, rfl⟩

theorem mmul (bd : BReg) (ba : BReg) (bb : BReg) (bm : BReg) : Statement (.mmul bd ba bb bm) := fun _ => by
  rw [show bits (encode (.mmul bd ba bb bm)) 31 24 = 0x43 from bits_op_wordR (by omega) (by omega) (by omega) (by omega) (by omega)]
  exact ⟨_, rfl, rfl⟩

theorem msqr (bd : BReg) (ba : BReg) (bm : BReg) : Statement (.msqr bd ba bm) := fun _ => by
  rw [show bits (encode (.msqr bd ba bm)) 31 24 = 0x44 from bits_op_wordR (by omega) (by omega) (by omega) (by omega) (by omega)]
  exact ⟨_, rfl, rfl⟩

theorem mexp (bd : BReg) (ba : BReg) (bn : BReg) (bm : BReg) : Statement (.mexp bd ba bn bm) := fun _ => by
  rw [show bits (encode (.mexp bd ba bn bm)) 31 24 = 0x45 from bits_op_wordR (by omega) (by omega) (by omega) (by omega) (by omega)]
  exact ⟨_, rfl, rfl⟩

theorem mredc (bd : BReg) (bt : BReg) (bm : BReg) : Statement (.mredc bd bt bm) := fun _ => by
  rw [show bits (encode (.mredc bd bt bm)) 31 24 = 0x48 from bits_op_wordR (by omega) (by omega) (by omega) (by omega) (by omega)]
  exact ⟨_, rfl, rfl⟩

theorem mmont (bd : BReg) (ba : BReg) (bb : BReg) (bm : BReg) : Statement (.mmont bd ba bb bm) := fun _ => by
  rw [show bits (encode (.mmont bd ba bb bm)) 31 24 = 0x49 from bits_op_wordR (by omega) (by omega) (by omega) (by omega) (by omega)]
  exact ⟨_, rfl, rfl⟩

theorem mtom (bd : BReg) (ba : BReg) (bm : BReg) : Statement (.mtom bd ba bm) := fun _ => by
  rw [show bits (encode (.mtom bd ba bm)) 31 24 = 0x4A from bits_op_wordR (by omega) (by omega) (by omega) (by omega) (by omega)]
  exact ⟨_, rfl, rfl⟩

theorem ld (xd : XReg) (xs : XReg) (s16 : BitVec 16) : Statement (.ld xd xs s16) := fun _ => by
  rw [show bits (encode (.ld xd xs s16)) 31 24 = 0x50 from bits_op_wordI (by omega) (by omega) (by omega) (by omega)]
  exact ⟨_, rfl, rfl⟩

theorem sd (xa : XReg) (xs : XReg) (s16 : BitVec 16) : Statement (.sd xa xs s16) := fun _ => by
  rw [show bits (encode (.sd xa xs s16)) 31 24 = 0x51 from bits_op_wordI (by omega) (by omega) (by omega) (by omega)]
  exact ⟨_, rfl, rfl⟩

theorem bld (bd : BReg) (xs : XReg) (s16 : BitVec 16) : Statement (.bld bd xs s16) := fun _ => by
  rw [show bits (encode (.bld bd xs s16)) 31 24 = 0x52 from bits_op_wordI (by omega) (by omega) (by omega) (by omega)]
  exact ⟨_, rfl, rfl⟩

theorem bst (ba : BReg) (xs : XReg) (s16 : BitVec 16) : Statement (.bst ba xs s16) := fun _ => by
  rw [show bits (encode (.bst ba xs s16)) 31 24 = 0x53 from bits_op_wordI (by omega) (by omega) (by omega) (by omega)]
  exact ⟨_, rfl, rfl⟩

end Sys2Proof.Laws.EncodeOpcode
end

