-- ==== Sys2Proof/Laws/Step.lean ====
section
/-! SUPPORT. What a step of the machine and a host access can do, each said once. -/

namespace Sys2Proof.Machine

/-! ### Whose turn it is (log 6) -/

theorem step_nil {s : State} (h : s.turns = []) : step s = kernelStep s := by
  unfold step takeTurn; rw [h]

theorem step_kernel {s : State} {rest : List Turn} (h : s.turns = .kernel :: rest) :
    step s = kernelStep { s with turns := rest } := by
  unfold step takeTurn; rw [h]

theorem step_bus {s : State} {op : BusOp} {rest : List Turn} (h : s.turns = .bus op :: rest) :
    step s = .next (busAccess op { s with turns := rest }) := by
  unfold step takeTurn; rw [h]

theorem step_powerOn {s : State} {rest : List Turn} (h : s.turns = .powerOn :: rest) :
    step s = .next (powerOnReset { s with turns := rest }) := by
  unfold step takeTurn; rw [h]

/-! ### The kernel -/

theorem kernelStep_idle {s : State} (h : s.run = false) : kernelStep s = .next s := by simp [kernelStep, h]

theorem kernelStep_fetchFault {s : State} (h : s.run = true) (hf : fetch s = none) :
    kernelStep s = .next (errorEntry (fetchError s.pc) s) := by
  simp [kernelStep, h, hf, raise_eq]

theorem kernelStep_illegal {s : State} {w : InstrWord} {why : Illegal} (h : s.run = true) (hf : fetch s = some w)
    (hd : decode w = .illegal why) : kernelStep s = .next (errorEntry (illegalWord w) s) := by
  simp [kernelStep, h, hf, hd, raise_eq]

theorem kernelStep_exec {s : State} {w : InstrWord} {i : Instr} (h : s.run = true) (hf : fetch s = some w)
    (hd : decode w = .instr i) : kernelStep s = exec i s := by
  simp [kernelStep, h, hf, hd]

/-- If the kernel's step answers a next state, it was idle, or it could not fetch, or the word was illegal, or it
executed an instruction. -/
theorem kernelStep_cases {s t : State} (h : kernelStep s = .next t) :
    (s.run = false ∧ t = s) ∨
    (s.run = true ∧ fetch s = none ∧ t = errorEntry (fetchError s.pc) s) ∨
    (∃ w why, s.run = true ∧ fetch s = some w ∧ decode w = .illegal why ∧ t = errorEntry (illegalWord w) s) ∨
    (∃ w i, s.run = true ∧ fetch s = some w ∧ decode w = .instr i ∧ exec i s = .next t) := by
  cases hr : s.run with
  | false => rw [kernelStep_idle hr] at h; exact .inl ⟨rfl, by injection h with h; exact h.symm⟩
  | true =>
    cases hf : fetch s with
    | none =>
      rw [kernelStep_fetchFault hr hf] at h
      exact .inr (.inl ⟨rfl, rfl, by injection h with h; exact h.symm⟩)
    | some w =>
      cases hd : decode w with
      | illegal why =>
        rw [kernelStep_illegal hr hf hd] at h
        exact .inr (.inr (.inl ⟨w, why, rfl, rfl, hd, by injection h with h; exact h.symm⟩))
      | instr i =>
        rw [kernelStep_exec hr hf hd] at h
        exact .inr (.inr (.inr ⟨w, i, rfl, rfl, hd, h⟩))

/-! ### The host -/

/-- A host access changes what the target it reaches says, and nothing outside the block. -/
theorem busWrite_outside {addr width : Nat} {v : Word} {s : State} (h : blockOffset s.params addr = none) :
    busWrite addr width v s = s := by
  simp [busWrite, h]

theorem busRead_outside {addr width : Nat} {s : State} (h : blockOffset s.params addr = none) :
    busRead s addr width = none := by
  simp [busRead, h]

/-- A write of CTRL is a soft reset, or it is CLR and GO in that order, each only while the kernel is idle. -/
theorem ctrlWrite_cases (v : Word) (s : State) :
    (dataBit v 1 = true ∧ ctrlWrite v s = softReset s) ∨
    (dataBit v 1 = false ∧ s.run = true ∧ ctrlWrite v s = s) ∨
    (dataBit v 1 = false ∧ s.run = false ∧
      ctrlWrite v s = (if dataBit v 0 then go else id) (if dataBit v 2 then clr s else s)) := by
  cases h1 : dataBit v 1 with
  | true => exact .inl ⟨rfl, by simp [ctrlWrite, h1]⟩
  | false =>
    cases hr : s.run with
    | true => exact .inr (.inl ⟨rfl, rfl, by simp [ctrlWrite, h1, hr]⟩)
    | false =>
      refine .inr (.inr ⟨rfl, rfl, ?_⟩)
      cases h2 : dataBit v 2 <;> cases h0 : dataBit v 0 <;> simp [ctrlWrite, h1, hr, h2, h0]

end Sys2Proof.Machine
end

