-- ==== Sys2Proof/Machine/AsmParse.lean ====
section
/-! DEFINITION. Reading one line of assembler text (30_encoding.md R135 to R137): mnemonics in either case, operands in
the order of R118, labels by their IMEM index, pseudo-instructions by their expansion. An operand outside its field's
range is rejected. R135 gives no form for defining a label, so the labels and their indices are given, and it does not
say whether `_` may group the digits of a number: it may here (log 23). -/

namespace Sys2Proof.Machine

/-- Where a line stands: its IMEM index, and the index of every label (R135). -/
structure AsmContext where
  /-- The IMEM index of the line's first instruction. -/
  index : Nat
  /-- The labels with their IMEM indices. -/
  labels : List (String × Nat)
deriving DecidableEq, Repr

/-- A blank. -/
def isBlank (c : Char) : Bool := c = ' ' || c = '\t'

/-- Text without the blanks around it. -/
def trimText (cs : List Char) : List Char := ((cs.dropWhile isBlank).reverse.dropWhile isBlank).reverse

/-- The pieces of a text between its commas. -/
def splitCommas : List Char → List (List Char)
  | [] => [[]]
  | c :: cs =>
    match c == ',', splitCommas cs with
    | true, ws => [] :: ws
    | false, [] => [[c]]
    | false, w :: ws => (c :: w) :: ws

/-- The value of a digit; 16 for a character that is none. -/
def digitValue (c : Char) : Nat :=
  if '0' ≤ c ∧ c ≤ '9' then c.toNat - 48
  else if 'a' ≤ c ∧ c ≤ 'f' then c.toNat - 87
  else if 'A' ≤ c ∧ c ≤ 'F' then c.toNat - 55
  else 16

/-- The value of a run of digits after those that gave `acc`. -/
def digitsValue (radix acc : Nat) : List Char → Option Nat
  | [] => some acc
  | c :: cs => if digitValue c < radix then digitsValue radix (acc * radix + digitValue c) cs else none

/-- A number's text without each `_` that stands between two digits. DESIGN CHOICE (log 23): R135 does not list `_`, and
the example of R137 is written `LI x1, 0x1_0000_0000`. -/
def dropDigitGroups : List Char → List Char
  | c :: '_' :: d :: cs =>
    if digitValue c < 16 ∧ digitValue d < 16 then c :: dropDigitGroups (d :: cs)
    else c :: '_' :: dropDigitGroups (d :: cs)
  | c :: cs => c :: dropDigitGroups cs
  | [] => []

/-- R135: a number without `_`, decimal with an optional minus sign or hexadecimal with 0x. -/
def parsePlainNumber : List Char → Option Int
  | [] => none
  | ['-'] => none
  | ['0', 'x'] => none
  | '-' :: ds => (digitsValue 10 0 ds).map fun n => -(n : Int)
  | '0' :: 'x' :: ds => (digitsValue 16 0 ds).map fun n => (n : Int)
  | ds => (digitsValue 10 0 ds).map fun n => (n : Int)

/-- R135: a number. That `_` may group its digits, one at a time and between two of them, is the model's choice
(DESIGN CHOICE, log 23); R135 leaves it open. -/
def parseNumber (cs : List Char) : Option Int := parsePlainNumber (dropDigitGroups cs)

/-- The number in a register name, without leading zeros. -/
def registerNumber (limit : Nat) : List Char → Option Nat
  | [d] => (digitsValue 10 0 [d]).bind fun n => if n < limit then some n else none
  | [d, e] =>
    if d = '0' then none else (digitsValue 10 0 [d, e]).bind fun n => if n < limit then some n else none
  | _ => none

/-- R135: `x0` to `x15`. -/
def parseX : List Char → Option XReg
  | 'x' :: ds => (registerNumber 16 ds).map (Fin.ofNat 16)
  | _ => none

/-- R135: `b0` to `b7`. -/
def parseB : List Char → Option BReg
  | 'b' :: ds => (registerNumber 8 ds).map (Fin.ofNat 8)
  | _ => none

/-- A number within bounds, as the field of `width` bits that holds it (R117). -/
def numberField (lo hi : Int) (width : Nat) (cs : List Char) : Option Nat :=
  (parseNumber cs).bind fun v => if lo ≤ v ∧ v ≤ hi then some (v % 2 ^ width).toNat else none

/-- R135, R53: a CSR by number or by name. -/
def parseCsr (cs : List Char) : Option Nat :=
  match (List.range 11).find? fun n => csrText n == String.ofList cs with
  | some n => some n
  | none => numberField 0 4095 12 cs

/-- R135: a branch or jump target, a label or a signed word offset. -/
def parseTarget (width : Nat) (ctx : AsmContext) (cs : List Char) : Option Nat :=
  match ctx.labels.lookup (String.ofList cs) with
  | some t => (labelOffset width t ctx.index).map BitVec.toNat
  | none => numberField (-(2 ^ (width - 1))) (2 ^ (width - 1) - 1) width cs

/-- R117: the immediate field of a kind. -/
def parseImm (k : ImmKind) (ctx : AsmContext) (cs : List Char) : Option Nat :=
  match k with
  | .none => none
  | .s16 => numberField (-32768) 32767 16 cs
  | .z16 => numberField 0 65535 16 cs
  | .sh => numberField 0 63 6 cs
  | .csr => parseCsr cs
  | .off16 => parseTarget 16 ctx cs
  | .off20 => parseTarget 20 ctx cs

/-- R135: a memory operand `offset(xs)` as the operands `xs` and `offset`. -/
def splitMemory (cs : List Char) : Option (List (List Char)) :=
  let reg := (cs.dropWhile (· ≠ '(')).drop 1
  match reg.reverse with
  | ')' :: r => some [trimText r.reverse, trimText (cs.takeWhile (· ≠ '('))]
  | _ => none

/-- R118, R135: the operands in the order of the slots and the immediate: CSRW is written `CSRW csr, xs`, and a load or
store has a memory operand. -/
def slotOrder (r : OpRow) (ops : List (List Char)) : Option (List (List Char)) :=
  match ops with
  | [o, p] =>
    if r.code = 0x04 then some [p, o]
    else if 0x50 ≤ r.code then (splitMemory p).map (o :: ·)
    else some [o, p]
  | _ => if r.code = 0x04 ∨ 0x50 ≤ r.code then none else some ops

/-- R116: the value of a register slot. -/
def parseSlot : Slot → List Char → Option Nat
  | .x, cs => (parseX cs).map Fin.val
  | .b, cs => (parseB cs).map Fin.val
  | .zero, _ => none
  | .imm, _ => none

/-- R111: the register slots of a word from the operands, each slot with its lowest bit; what is left over follows. -/
def fillSlots : List (Slot × Nat) → List (List Char) → Option (Nat × List (List Char))
  | [], ops => some (0, ops)
  | (k, low) :: ks, ops =>
    if k = .x ∨ k = .b then
      match ops with
      | [] => none
      | o :: os =>
        match parseSlot k o, fillSlots ks os with
        | some v, some (n, rest) => some (v * 2 ^ low + n, rest)
        | _, _ => none
    else fillSlots ks ops

/-- R118: the word of a row with these operands. -/
def assembleRow (r : OpRow) (ctx : AsmContext) (ops : List (List Char)) : Option InstrWord :=
  match (slotOrder r ops).bind (fillSlots [(r.a, 20), (r.b, 16), (r.c, 12), (r.d, 8)]) with
  | none => none
  | some (n, []) => if r.imm = .none then some (BitVec.ofNat 32 (r.code * 2 ^ 24 + n)) else none
  | some (n, [o]) => (parseImm r.imm ctx o).map fun v => BitVec.ofNat 32 (r.code * 2 ^ 24 + n + v)
  | some (_, _ :: _ :: _) => none

/-- R135: the instruction of a mnemonic (in capitals) and its operands. -/
def assembleInstr (mnemonic : String) (ctx : AsmContext) (ops : List (List Char)) : Option Instr :=
  match opRows.find? fun r => r.mnemonic == mnemonic with
  | none => none
  | some r =>
    match (assembleRow r ctx ops).map decode with
    | some (.instr i) => some i
    | _ => none

/-- R136: a branch target as an offset field. -/
def target16 (ctx : AsmContext) (cs : List Char) : Option (BitVec 16) := (parseTarget 16 ctx cs).map (BitVec.ofNat 16)

/-- R136: a jump target as an offset field. -/
def target20 (ctx : AsmContext) (cs : List Char) : Option (BitVec 20) := (parseTarget 20 ctx cs).map (BitVec.ofNat 20)

/-- R136: a pseudo-instruction with two scalar registers and a target. -/
def twoAndTarget (f : XReg → XReg → BitVec 16 → Pseudo) (ctx : AsmContext) (a b t : List Char) : Option Pseudo :=
  match parseX a, parseX b, target16 ctx t with
  | some xa, some xb, some off => some (f xa xb off)
  | _, _, _ => none

/-- R136: a pseudo-instruction with two scalar registers. -/
def twoScalars (f : XReg → XReg → Pseudo) (a b : List Char) : Option Pseudo :=
  match parseX a, parseX b with
  | some xd, some xs => some (f xd xs)
  | _, _ => none

/-- R136: a pseudo-instruction with a scalar register and a target. -/
def oneAndTarget (f : XReg → BitVec 16 → Pseudo) (ctx : AsmContext) (a t : List Char) : Option Pseudo :=
  match parseX a, target16 ctx t with
  | some xs, some off => some (f xs off)
  | _, _ => none

/-- R136: the pseudo-instruction of a mnemonic (in capitals) and its operands; NOT needs two different registers. -/
def assemblePseudo (mnemonic : String) (ctx : AsmContext) (ops : List (List Char)) : Option Pseudo :=
  match mnemonic, ops with
  | "MV", [a, b] => twoScalars .mv a b
  | "NEG", [a, b] => twoScalars .neg a b
  | "NOT", [a, b] => if parseX a = parseX b then none else twoScalars .not a b
  | "J", [t] => (target20 ctx t).map .j
  | "CALL", [t] => (target20 ctx t).map .call
  | "RET", [] => some .ret
  | "JR", [a] => (parseX a).map .jr
  | "BEQZ", [a, t] => oneAndTarget .beqz ctx a t
  | "BNEZ", [a, t] => oneAndTarget .bnez ctx a t
  | "BGT", [a, b, t] => twoAndTarget .bgt ctx a b t
  | "BLE", [a, b, t] => twoAndTarget .ble ctx a b t
  | "BGTU", [a, b, t] => twoAndTarget .bgtu ctx a b t
  | "BLEU", [a, b, t] => twoAndTarget .bleu ctx a b t
  | "ACCCLR", [] => some .accclr
  | "BCLR", [a] => (parseB a).map .bclr
  | "LI", [a, v] =>
    match parseX a, parseNumber v with
    | some xd, some n => some (.li xd (BitVec.ofInt 64 n))
    | _, _ => none
  | _, _ => none

/-- R135 to R137: the instructions of one line of text; none for a line that is rejected. -/
def assembleLine (ctx : AsmContext) (line : String) : Option (List Instr) :=
  let cs := trimText (line.toList.takeWhile (· ≠ ';'))
  let mnemonic := String.ofList ((cs.takeWhile (!isBlank ·)).map Char.toUpper)
  let rest := trimText (cs.dropWhile (!isBlank ·))
  let ops := if rest.isEmpty then [] else (splitCommas rest).map trimText
  if cs.isEmpty then some []
  else
    match assembleInstr mnemonic ctx ops with
    | some i => some [i]
    | none => (assemblePseudo mnemonic ctx ops).map Pseudo.expand

end Sys2Proof.Machine
end

