-- ==== Sys2Proof/Tests/Slice0.lean ====
section
/-! SUPPORT. Tests. The words, start values and end values are those of 95_test_vectors.md (a test's name ends in its
vector's number) or of the worked encodings of 30_encoding.md; the other tests name their source. The theorems
`witness_…` show a concrete state and operands that meet the hypotheses of the obligation they name. -/

open Sys2Proof Sys2Proof.Machine

namespace Sys2Proof.Tests

set_option Elab.async false

/-- The machine inside a run, at pc 0, with everything else as reset leaves it. -/
def inRun : State := { State.reset with run := true }

/-- The same machine with another KTHRESH. -/
def withKthresh (v : BitVec 16) (s : State) : State := { s with kthresh := v }

/-- Place a word at the pc, step, and check the next state. -/
def runs (w : Nat) (s : State) (check : State → Bool) : Bool :=
  match step (s.withFetchWord 32 w) with
  | .next t => check t
  | .fault _ => false
  | .refused _ => false

/-- Place a word at the pc, step, and check the error stop: STATUS, CAUSE, EINFO, EPC and pc. -/
def stopsAs (w : Nat) (s : State) (cause : BitVec 8) (info : Word) (epc : Index) : Bool :=
  runs w s fun t => statusWord t = 4 && t.cause = cause && t.einfo = info && t.epc = epc && t.pc = epc

/-- One instruction, executed without fetch. -/
def after (i : Instr) (s : State) : State :=
  match exec i s with
  | .next t => t
  | .fault _ => s
  | .refused _ => s

/-! ### WellFormed -/

-- R117: a shift amount of 64 and a CSR number of 13 bits have no encoding.
theorem test_wellFormed_slli : (Instr.slli 3 1 64).wellFormed = false := by decide
theorem test_wellFormed_srli : (Instr.srli 3 1 64).wellFormed = false := by decide
theorem test_wellFormed_csrr : (Instr.csrr 3 4096).wellFormed = false := by decide
theorem test_wellFormed_csrw : (Instr.csrw 3 4096).wellFormed = false := by decide
theorem test_wellFormed_bounds : (Instr.slli 3 1 63).wellFormed = true ∧ (Instr.srli 3 1 63).wellFormed = true ∧
    (Instr.csrr 3 4095).wellFormed = true ∧ (Instr.csrw 3 4095).wellFormed = true := by decide

/-! ### Decode: one word for every constructor -/

theorem test_decode_control :
    decode 0x01000000 = .instr (.halt) ∧
    decode 0x02000000 = .instr (.nop) ∧
    decode 0x0330000B = .instr (.csrr 3 0x00B) ∧
    decode 0x04100006 = .instr (.csrw 1 6) ∧
    decode 0x081FFFFF = .instr (.jal 1 (-1)) ∧
    decode 0x09110004 = .instr (.jalr 1 1 4) ∧
    decode 0x0A120005 = .instr (.beq 1 2 5) ∧
    decode 0x0B63FFF9 = .instr (.bne 6 3 (-7)) ∧
    decode 0x0C120002 = .instr (.blt 1 2 2) ∧
    decode 0x0D120002 = .instr (.bge 1 2 2) ∧
    decode 0x0E120002 = .instr (.bltu 1 2 2) ∧
    decode 0x0F120002 = .instr (.bgeu 1 2 2) := by
  decide +kernel

theorem test_decode_alu :
    decode 0x10312000 = .instr (.add 3 1 2) ∧
    decode 0x11312000 = .instr (.sub 3 1 2) ∧
    decode 0x12312000 = .instr (.and 3 1 2) ∧
    decode 0x13312000 = .instr (.or 3 1 2) ∧
    decode 0x14312000 = .instr (.xor 3 1 2) ∧
    decode 0x15312000 = .instr (.sll 3 1 2) ∧
    decode 0x16312000 = .instr (.srl 3 1 2) ∧
    decode 0x17312000 = .instr (.sltu 3 1 2) ∧
    decode 0x1831FFFF = .instr (.addi 3 1 (-1)) ∧
    decode 0x1931FFFF = .instr (.ori 3 1 0xFFFF) ∧
    decode 0x1A31003F = .instr (.slli 3 1 63) ∧
    decode 0x1B310001 = .instr (.srli 3 1 1) ∧
    decode 0x1C31FFFF = .instr (.andi 3 1 0xFFFF) := by
  decide +kernel

theorem test_decode_mac :
    decode 0x20312000 = .instr (.mullo 3 1 2) ∧
    decode 0x21312000 = .instr (.mulhu 3 1 2) ∧
    decode 0x22012000 = .instr (.mul128 1 2) ∧
    decode 0x23012000 = .instr (.mac128 1 2) ∧
    decode 0x24010000 = .instr (.accadd 1) ∧
    decode 0x25012000 = .instr (.accset 1 2) ∧
    decode 0x26300000 = .instr (.acclo 3) ∧
    decode 0x27400000 = .instr (.acchi 4) ∧
    decode 0x28400000 = .instr (.accnorm 4) ∧
    decode 0x29400000 = .instr (.accpop 4) := by
  decide +kernel

theorem test_decode_big :
    decode 0x30312000 = .instr (.badd 3 1 2) ∧
    decode 0x31312000 = .instr (.bsub 3 1 2) ∧
    decode 0x32310000 = .instr (.bneg 3 1) ∧
    decode 0x33412000 = .instr (.bmul 4 1 2) ∧
    decode 0x34312000 = .instr (.kmul 3 1 2) ∧
    decode 0x35312000 = .instr (.bdiv 3 1 2) ∧
    decode 0x36312000 = .instr (.brem 3 1 2) ∧
    decode 0x37312000 = .instr (.bcmp 3 1 2) ∧
    decode 0x38510000 = .instr (.bmov 5 1) ∧
    decode 0x39310000 = .instr (.bfromx 3 1) ∧
    decode 0x3A308000 = .instr (.bli 3 (-32768)) ∧
    decode 0x3B310000 = .instr (.blen 3 1) ∧
    decode 0x3C312000 = .instr (.blimb 3 1 2) ∧
    decode 0x3D310000 = .instr (.bsgn 3 1) := by
  decide +kernel

theorem test_decode_modular :
    decode 0x40312000 = .instr (.mmod 3 1 2) ∧
    decode 0x41312400 = .instr (.madd 3 1 2 4) ∧
    decode 0x42312400 = .instr (.msub 3 1 2 4) ∧
    decode 0x43312400 = .instr (.mmul 3 1 2 4) ∧
    decode 0x44312000 = .instr (.msqr 3 1 2) ∧
    decode 0x45412300 = .instr (.mexp 4 1 2 3) ∧
    decode 0x48312000 = .instr (.mredc 3 1 2) ∧
    decode 0x49312400 = .instr (.mmont 3 1 2 4) ∧
    decode 0x4A312000 = .instr (.mtom 3 1 2) := by
  decide +kernel

theorem test_decode_memory :
    decode 0x5021FEF8 = .instr (.ld 2 1 (-264)) ∧
    decode 0x51850000 = .instr (.sd 8 5 0) ∧
    decode 0x52100000 = .instr (.bld 1 0 0) ∧
    decode 0x53310000 = .instr (.bst 3 1 0) := by
  decide +kernel

-- V30-1 to V30-16: malformed words, each with the reason that 95_test_vectors.md names.
theorem test_decode_malformed :
    decode 0x00000000 = .illegal .unassignedOpcode ∧ decode 0xFF000000 = .illegal .unassignedOpcode ∧
    decode 0x01000001 = .illegal .reservedOperands ∧ decode 0x30810000 = .illegal .notBigRegister ∧
    decode 0x33000001 = .illegal .reservedZ ∧ decode 0x1A310040 = .illegal .shiftRange ∧
    decode 0x20001100 = .illegal .reservedSlot ∧ decode 0x22312000 = .illegal .reservedSlot ∧
    decode 0x24012000 = .illegal .reservedSlot ∧ decode 0x3A310000 = .illegal .reservedSlot ∧
    decode 0x45412308 = .illegal .reservedZ ∧ decode 0x03310006 = .illegal .reservedSlot ∧
    decode 0x06000000 = .illegal .unassignedOpcode ∧ decode 0x55000000 = .illegal .unassignedOpcode ∧
    decode 0x03301006 = .illegal .csrRange := by
  decide +kernel

-- V30-1, V30-6, V30-7 and V30-13: what a run makes of a malformed word, and of an unassigned CSR number.
theorem test_malformed_V30_6 : stopsAs 0x1A310040 inRun 1 0x1A310040 0 = true := by decide +kernel
theorem test_unassigned_V30_1 : stopsAs 0x00000000 inRun 1 0 0 = true := by decide +kernel
theorem test_unassignedCsr_V30_7 : stopsAs 0x03300FFF inRun 1 0x3300FFF 0 = true := by decide +kernel
theorem test_unassignedCsr_V30_13 : stopsAs 0x04100FFF inRun 1 0x4100FFF 0 = true := by decide +kernel

-- R118 and spec/opcode_table.json list the same 62 mnemonics in the same order, and agree on every opcode.
theorem test_tables_agree :
    maskTable.map (fun r => (r.mnemonic, r.pattern.toNat / 2 ^ 24)) = opRows.map (fun r => (r.mnemonic, r.code)) ∧
    opRows.length = 62 := by
  decide +kernel

/-! ### One step -/


-- V40-1: MULLO x3, x1, x2
theorem test_mullo_V40_1 :
    runs 0x20312000 (writeX 2 0xFFFFFFFFFFFFFFFF (writeX 1 0xFFFFFFFFFFFFFFFF inRun))
      (fun t => readX t 3 = 1 && t.pc = 1) = true := by decide +kernel

-- V40-9: MULLO x0, x1, x2
theorem test_mullo_V40_9 :
    runs 0x20012000 (writeX 2 7 (writeX 1 5 inRun))
      (fun t => readX t 0 = 0 && t.pc = 1) = true := by decide +kernel

-- V40-2: MULHU x3, x1, x2
theorem test_mulhu_V40_2 :
    runs 0x21312000 (writeX 2 0xFFFFFFFFFFFFFFFF (writeX 1 0xFFFFFFFFFFFFFFFF inRun))
      (fun t => readX t 3 = 0xFFFFFFFFFFFFFFFE && t.pc = 1) = true := by decide +kernel

-- V40-10: MUL128 x1, x2
theorem test_mul128_V40_10 :
    runs 0x22012000 (setC true (writeX 2 0xFFFFFFFFFFFFFFFF (writeX 1 0xFFFFFFFFFFFFFFFF inRun)))
      (fun t => t.acc = 0xFFFFFFFFFFFFFFFE0000000000000001 && t.c = false && t.pc = 1) = true := by decide +kernel

-- V40-13: MAC128 x1, x2
theorem test_mac128_V40_13 :
    runs 0x23012000 (setAcc 0x80000000000000000000000000000000 (writeX 2 2 (writeX 1 0x8000000000000000 inRun)))
      (fun t => t.acc = 0x80000000000000010000000000000000 && t.c = false && t.pc = 1) = true := by decide +kernel

-- V40-15: MAC128 x1, x2
theorem test_mac128_V40_15 :
    runs 0x23012000 (setAcc 0xFFFFFFFFFFFFFFFFFFFFFFFFFFFFFFFF (writeX 2 0xFFFFFFFFFFFFFFFF (writeX 1 0xFFFFFFFFFFFFFFFF inRun)))
      (fun t => t.acc = 0xFFFFFFFFFFFFFFFE0000000000000000 && t.c = true && t.pc = 1) = true := by decide +kernel

-- V40-16: ACCADD x1
theorem test_accadd_V40_16 :
    runs 0x24010000 (setAcc 0xFFFFFFFFFFFFFFFFFFFFFFFFFFFFFFFF (writeX 1 1 inRun))
      (fun t => t.acc = 0 && t.c = true && t.pc = 1) = true := by decide +kernel

-- V40-18: ACCSET x1, x2
theorem test_accset_V40_18 :
    runs 0x25012000 (setC true (writeX 2 5 (writeX 1 1 inRun)))
      (fun t => t.acc = 0x10000000000000005 && t.c = false && t.pc = 1) = true := by decide +kernel

-- V40-20: ACCLO x3
theorem test_acclo_V40_20 :
    runs 0x26300000 (setAcc 0xFFFFFFFFFFFFFFFC0000000000000002 inRun)
      (fun t => readX t 3 = 2 && t.pc = 1) = true := by decide +kernel

-- V40-22: ACCHI x4
theorem test_acchi_V40_22 :
    runs 0x27400000 (setAcc 0xFFFFFFFFFFFFFFFC0000000000000002 inRun)
      (fun t => readX t 4 = 0xFFFFFFFFFFFFFFFC && t.pc = 1) = true := by decide +kernel

-- V40-24: ACCNORM x4
theorem test_accnorm_V40_24 :
    runs 0x28400000 (setC true (setAcc 0xFFFFFFFFFFFFFFFFFFFFFFFFFFFFFFFF inRun))
      (fun t => readX t 4 = 0x2DC9F9FF && t.acc = 0x44B82FA09B5A52CB98B405447 && t.pc = 1) = true := by decide +kernel

-- V40-26: ACCNORM x0
theorem test_accnorm_V40_26 :
    runs 0x28000000 (setAcc 0x3B9ACA07 inRun)
      (fun t => readX t 0 = 0 && t.acc = 1 && t.pc = 1) = true := by decide +kernel

-- V40-29: ACCPOP x4
theorem test_accpop_V40_29 :
    runs 0x29400000 (setC true (setAcc 0xFFFFFFFFFFFFFFFFFFFFFFFFFFFFFFFF inRun))
      (fun t => readX t 4 = 0xFFFFFFFFFFFFFFFF && t.acc = 0xFFFFFFFFFFFFFFFF && t.pc = 1) = true := by decide +kernel

-- V41-3: BADD b3, b1, b2
theorem test_badd_V41_3 :
    runs 0x30312000 (setB 2 1 (setB 1 (-1000000000) inRun))
      (fun t => readB t 3 = -999999999 && t.pc = 1) = true := by decide +kernel

-- V41-5: BADD b3, b1, b2
theorem test_badd_V41_5 :
    stopsAs 0x30312000 (setB 2 1 (setB 1 (10 ^ 2304 - 1) inRun)) 8 0x101 0 = true := by decide +kernel

-- V41-7: BSUB b3, b1, b2
theorem test_bsub_V41_7 :
    runs 0x31312000 (setB 2 (10 ^ 18) inRun)
      (fun t => readB t 3 = -10 ^ 18 && t.pc = 1) = true := by decide +kernel

-- V41-12: BNEG b3, b1
theorem test_bneg_V41_12 :
    runs 0x32310000 (setB 1 (10 ^ 18) inRun)
      (fun t => readB t 3 = -10 ^ 18 && t.pc = 1) = true := by decide +kernel

-- V41-15: BDIV b3, b1, b2
theorem test_bdiv_V41_15 :
    runs 0x35312000 (setB 2 2 (setB 1 (-7) inRun))
      (fun t => readB t 3 = -3 && t.pc = 1) = true := by decide +kernel

-- V41-31: BDIV b3, b1, b2
theorem test_bdiv_V41_31 :
    stopsAs 0x35312000 (setB 1 5 inRun) 5 0 0 = true := by decide +kernel

-- V41-16: BREM b3, b1, b2
theorem test_brem_V41_16 :
    runs 0x36312000 (setB 2 2 (setB 1 (-7) inRun))
      (fun t => readB t 3 = -1 && t.pc = 1) = true := by decide +kernel

-- V41-18: BREM b3, b1, b2
theorem test_brem_V41_18 :
    runs 0x36312000 (setB 2 (-2) (setB 1 7 inRun))
      (fun t => readB t 3 = 1 && t.pc = 1) = true := by decide +kernel

-- V41-36: BCMP x3, b1, b2
theorem test_bcmp_V41_36 :
    runs 0x37312000 (setB 2 (-5) (setB 1 (-10 ^ 18) inRun))
      (fun t => readX t 3 = 0xFFFFFFFFFFFFFFFF && t.pc = 1) = true := by decide +kernel

-- V41-37: BMOV b5, b1
theorem test_bmov_V41_37 :
    runs 0x38510000 (setB 1 (-123) inRun)
      (fun t => readB t 5 = -123 && t.pc = 1) = true := by decide +kernel

-- V41-38: BFROMX b3, x1
theorem test_bfromx_V41_38 :
    runs 0x39310000 (writeX 1 0x8000000000000000 inRun)
      (fun t => readB t 3 = -9223372036854775808 && t.pc = 1) = true := by decide +kernel

-- V41-42: BLI b3, -32768
theorem test_bli_V41_42 :
    runs 0x3A308000 inRun
      (fun t => readB t 3 = -32768 && t.pc = 1) = true := by decide +kernel

-- V41-46: BLEN x3, b1
theorem test_blen_V41_46 :
    runs 0x3B310000 (setB 1 1000000000 inRun)
      (fun t => readX t 3 = 2 && t.pc = 1) = true := by decide +kernel

-- V41-49: BLIMB x3, b1, x2
theorem test_blimb_V41_49 :
    runs 0x3C312000 (setB 1 1000000000 (writeX 2 1 inRun))
      (fun t => readX t 3 = 1 && t.pc = 1) = true := by decide +kernel

-- V41-51: BLIMB x3, b1, x2
theorem test_blimb_V41_51 :
    runs 0x3C312000 (setB 1 (-7) (writeX 2 0xFFFFFFFFFFFFFFFF inRun))
      (fun t => readX t 3 = 0 && t.pc = 1) = true := by decide +kernel

-- V41-52: BSGN x3, b1
theorem test_bsgn_V41_52 :
    runs 0x3D310000 (setB 1 (-5) inRun)
      (fun t => readX t 3 = 0xFFFFFFFFFFFFFFFF && t.pc = 1) = true := by decide +kernel

-- V42-1: BMUL b4, b1, b2
theorem test_bmul_V42_1 :
    runs 0x33412000 (setB 2 999999999 (setB 1 (10 ^ 27 - 1) inRun))
      (fun t => readB t 4 = 999999998999999999999999999000000001 && t.pc = 1) = true := by decide +kernel

-- V42-6: BMUL b4, b1, b2
theorem test_bmul_V42_6 :
    stopsAs 0x33412000 (setB 2 (10 ^ 1800) (setB 1 (10 ^ 1800) inRun)) 8 0x191 0 = true := by decide +kernel

-- V42-7: KMUL b3, b1, b2
theorem test_kmul_V42_7 :
    runs 0x34312000 (setB 2 987654321987654321987654321987654321987654321 (setB 1 123456789123456789123456789123456789123456789123456789 inRun))
      (fun t => readB t 3 = 121932631356500531591068431825636332060204232172839501050906869816338969581771069347203169112635269 && t.pc = 1) = true := by decide +kernel

-- V42-8: KMUL b3, b1, b2
theorem test_kmul_V42_8 :
    runs 0x34312000 (withKthresh 3 (setB 2 987654321987654321987654321987654321987654321 (setB 1 123456789123456789123456789123456789123456789123456789 inRun)))
      (fun t => readB t 3 = 121932631356500531591068431825636332060204232172839501050906869816338969581771069347203169112635269 && t.pc = 1) = true := by decide +kernel

-- V43-1: MMOD b3, b1, b2
theorem test_mmod_V43_1 :
    runs 0x40312000 (setB 2 5 (setB 1 (-7) inRun))
      (fun t => readB t 3 = 3 && t.pc = 1) = true := by decide +kernel

-- V43-6: MMOD b3, b1, b2
theorem test_mmod_V43_6 :
    stopsAs 0x40312000 (setB 2 (-5) (setB 1 12 inRun)) 6 2 0 = true := by decide +kernel

-- V43-8: MADD b3, b1, b2, b4
theorem test_madd_V43_8 :
    runs 0x41312400 (setB 4 7 (setB 2 (-4) (setB 1 (-3) inRun)))
      (fun t => readB t 3 = 0 && t.pc = 1) = true := by decide +kernel

-- V43-9: MSUB b3, b1, b2, b4
theorem test_msub_V43_9 :
    runs 0x42312400 (setB 4 5 (setB 2 4 (setB 1 3 inRun)))
      (fun t => readB t 3 = 4 && t.pc = 1) = true := by decide +kernel

-- V43-12: MMUL b3, b1, b2, b4
theorem test_mmul_V43_12 :
    runs 0x43312400 (setB 4 7 (setB 2 3 (setB 1 (-2) inRun)))
      (fun t => readB t 3 = 1 && t.pc = 1) = true := by decide +kernel

-- V43-13: MSQR b3, b1, b2
theorem test_msqr_V43_13 :
    runs 0x44312000 (setB 2 1000000007 (setB 1 1000000006 inRun))
      (fun t => readB t 3 = 1 && t.pc = 1) = true := by decide +kernel

-- V43-16: MEXP b4, b1, b2, b3
theorem test_mexp_V43_16 :
    runs 0x45412300 (setB 3 497 (setB 2 13 (setB 1 4 inRun)))
      (fun t => readB t 4 = 445 && t.pc = 1) = true := by decide +kernel

-- V43-28: MEXP b4, b1, b2, b3
theorem test_mexp_V43_28 :
    stopsAs 0x45412300 (setB 3 (-5) (setB 2 (-1) (setB 1 2 inRun))) 6 2 0 = true := by decide +kernel

-- V44-6: MTOM b3, b1, b2
theorem test_mtom_V44_6 :
    runs 0x4A312000 (setB 2 1000000007 (setB 1 123456789 inRun))
      (fun t => readB t 3 = 49382619 && t.pc = 1) = true := by decide +kernel

-- V44-10: MREDC b3, b1, b2
theorem test_mredc_V44_10 :
    runs 0x48312000 (setB 2 1000000007 (setB 1 (10 ^ 40) inRun))
      (fun t => readB t 3 = 490000 && t.pc = 1) = true := by decide +kernel

-- V44-13: MREDC b3, b1, b2
theorem test_mredc_V44_13 :
    stopsAs 0x48312000 (setB 2 10 (setB 1 4 inRun)) 6 3 0 = true := by decide +kernel

-- V44-8: MMONT b3, b1, b2, b4
theorem test_mmont_V44_8 :
    runs 0x49312400 (setB 4 1000000007 (setB 2 395061393 (setB 1 49382619 inRun)))
      (fun t => readB t 3 = 696236007 && t.pc = 1) = true := by decide +kernel

-- V45-1: LD x2, 8(x1)
theorem test_ld_V45_1 :
    runs 0x50210008 (memWrite 0x108 0x1122334455667788 (writeX 1 0x100 inRun))
      (fun t => readX t 2 = 0x1122334455667788 && t.pc = 1) = true := by decide +kernel

-- V45-2: LD x2, -264(x1)
theorem test_ld_V45_2 :
    stopsAs 0x5021FEF8 (writeX 1 0x100 inRun) 4 0xFFFFFFFFFFFFFFF8 0 = true := by decide +kernel

-- V45-8: SD x0, 0(x5)
theorem test_sd_V45_8 :
    runs 0x51050000 (memWrite 0x200 0xFFFF (writeX 5 0x200 inRun))
      (fun t => memRead t 0x200 = 0 && t.pc = 1) = true := by decide +kernel

-- V45-9: SD x8, 0(x5)
theorem test_sd_V45_9 :
    stopsAs 0x51850000 (writeX 8 1 (writeX 5 0x201 inRun)) 3 0x201 0 = true := by decide +kernel

-- V45-13: BLD b1, 0(x0)
theorem test_bld_V45_13 :
    runs 0x52100000 (memWrite 0x10 1 (memWrite 8 0 (memWrite 0 0x8000000000000002 inRun)))
      (fun t => readB t 1 = -1000000000 && t.pc = 1) = true := by decide +kernel

-- V45-18: BLD b1, 0(x1)
theorem test_bld_V45_18 :
    stopsAs 0x52110000 (memWrite 0xFFF8 1 (memWrite 0xFFF0 3 (writeX 1 0xFFF0 inRun))) 4 0x10000 0 = true := by decide +kernel

-- V45-20: BST b3, 0(x1)
theorem test_bst_V45_20 :
    runs 0x53310000 (memWrite 0x308 0xAAAA (setB 3 (-1000000000) (writeX 1 0x300 inRun)))
      (fun t => memRead t 0x300 = 0x8000000000000002 && memRead t 0x308 = 0 && memRead t 0x310 = 1 && t.pc = 1) = true := by decide +kernel

-- V45-22: BST b3, 0(x1)
theorem test_bst_V45_22 :
    stopsAs 0x53310000 (setB 3 (10 ^ 18) (writeX 1 0xFFF0 inRun)) 4 0x10000 0 = true := by decide +kernel

-- V46-1: HALT
theorem test_halt_V46_1 :
    runs 0x01000000 inRun (fun t => statusWord t = 2 && t.pc = 0) = true := by decide +kernel

-- V46-2: NOP
theorem test_nop_V46_2 :
    runs 0x02000000 (setPc 5 inRun)
      (fun t => t.pc = 6) = true := by decide +kernel

-- V46-3: CSRR x3, KTHRESH
theorem test_csrr_V46_3 :
    runs 0x03300006 inRun
      (fun t => readX t 3 = 0xA && t.pc = 1) = true := by decide +kernel

-- V46-8: CSRR x3, 0x00B
theorem test_csrr_V46_8 :
    stopsAs 0x0330000B inRun 1 0x330000B 0 = true := by decide +kernel

-- V46-12: CSRW KTHRESH, x1
theorem test_csrw_V46_12 :
    runs 0x04100006 (writeX 1 0xFFFFFFFFFFFFFFFF inRun)
      (fun t => t.kthresh = 65535 && t.pc = 1) = true := by decide +kernel

-- V46-16: CSRW ID, x1
theorem test_csrw_V46_16 :
    stopsAs 0x04100000 (writeX 1 5 inRun) 1 0x4100000 0 = true := by decide +kernel

-- V46-17: ADD x3, x1, x2
theorem test_add_V46_17 :
    runs 0x10312000 (writeX 2 2 (writeX 1 0xFFFFFFFFFFFFFFFF inRun))
      (fun t => readX t 3 = 1 && t.pc = 1) = true := by decide +kernel

-- V46-18: SUB x3, x1, x2
theorem test_sub_V46_18 :
    runs 0x11312000 (writeX 2 1 (writeX 1 0 inRun))
      (fun t => readX t 3 = 0xFFFFFFFFFFFFFFFF && t.pc = 1) = true := by decide +kernel

-- V46-19: AND x3, x1, x2
theorem test_and_V46_19 :
    runs 0x12312000 (writeX 2 0xFF00 (writeX 1 0xF0F0 inRun))
      (fun t => readX t 3 = 0xF000 && t.pc = 1) = true := by decide +kernel

-- V46-20: OR x3, x1, x2
theorem test_or_V46_20 :
    runs 0x13312000 (writeX 2 0xFF00 (writeX 1 0xF0F0 inRun))
      (fun t => readX t 3 = 0xFFF0 && t.pc = 1) = true := by decide +kernel

-- V46-21: XOR x3, x1, x2
theorem test_xor_V46_21 :
    runs 0x14312000 (writeX 2 0xFF00 (writeX 1 0xF0F0 inRun))
      (fun t => readX t 3 = 0xFF0 && t.pc = 1) = true := by decide +kernel

-- V46-22: SLL x3, x1, x2
theorem test_sll_V46_22 :
    runs 0x15312000 (writeX 2 0x40 (writeX 1 1 inRun))
      (fun t => readX t 3 = 1 && t.pc = 1) = true := by decide +kernel

-- V46-24: SRL x3, x1, x2
theorem test_srl_V46_24 :
    runs 0x16312000 (writeX 2 0x41 (writeX 1 0xFFFFFFFFFFFFFFFF inRun))
      (fun t => readX t 3 = 0x7FFFFFFFFFFFFFFF && t.pc = 1) = true := by decide +kernel

-- V46-26: SLTU x3, x1, x2
theorem test_sltu_V46_26 :
    runs 0x17312000 (writeX 2 1 (writeX 1 0xFFFFFFFFFFFFFFFF inRun))
      (fun t => readX t 3 = 0 && t.pc = 1) = true := by decide +kernel

-- V46-27: ADDI x3, x1, -1
theorem test_addi_V46_27 :
    runs 0x1831FFFF (writeX 1 0 inRun)
      (fun t => readX t 3 = 0xFFFFFFFFFFFFFFFF && t.pc = 1) = true := by decide +kernel

-- V46-28: ADDI x0, x0, 5
theorem test_addi_V46_28 :
    runs 0x18000005 inRun
      (fun t => readX t 0 = 0 && t.pc = 1) = true := by decide +kernel

-- V46-29: ORI x3, x1, 0xFFFF
theorem test_ori_V46_29 :
    runs 0x1931FFFF (writeX 1 0x100000000 inRun)
      (fun t => readX t 3 = 0x10000FFFF && t.pc = 1) = true := by decide +kernel

-- V46-30: SLLI x3, x1, 63
theorem test_slli_V46_30 :
    runs 0x1A31003F (writeX 1 3 inRun)
      (fun t => readX t 3 = 0x8000000000000000 && t.pc = 1) = true := by decide +kernel

-- V46-31: SRLI x3, x1, 1
theorem test_srli_V46_31 :
    runs 0x1B310001 (writeX 1 0xFFFFFFFFFFFFFFFF inRun)
      (fun t => readX t 3 = 0x7FFFFFFFFFFFFFFF && t.pc = 1) = true := by decide +kernel

-- V46-32: ANDI x3, x1, 0xFFFF
theorem test_andi_V46_32 :
    runs 0x1C31FFFF (writeX 1 0xFFFFFFFFFFFFFFFF inRun)
      (fun t => readX t 3 = 0xFFFF && t.pc = 1) = true := by decide +kernel

-- V46-34: JAL x1, -1
theorem test_jal_V46_34 :
    runs 0x081FFFFF inRun
      (fun t => readX t 1 = 1 && t.pc = 4294967295) = true := by decide +kernel

-- V46-37: JALR x1, x1, 4
theorem test_jalr_V46_37 :
    runs 0x09110004 (setPc 7 (writeX 1 0x64 inRun))
      (fun t => readX t 1 = 8 && t.pc = 104) = true := by decide +kernel

-- V46-40: BEQ x1, x2, 5
theorem test_beq_V46_40 :
    runs 0x0A120005 (setPc 10 (writeX 2 5 (writeX 1 4 inRun)))
      (fun t => t.pc = 11) = true := by decide +kernel

-- V46-41: BNE x6, x3, -7
theorem test_bne_V46_41 :
    runs 0x0B63FFF9 (setPc 11 (writeX 6 1 (writeX 3 3 inRun)))
      (fun t => t.pc = 4) = true := by decide +kernel

-- V46-42: BLT x1, x2, 2
theorem test_blt_V46_42 :
    runs 0x0C120002 (writeX 2 0 (writeX 1 0xFFFFFFFFFFFFFFFF inRun))
      (fun t => t.pc = 2) = true := by decide +kernel

-- V46-43: BLTU x1, x2, 2
theorem test_bltu_V46_43 :
    runs 0x0E120002 (writeX 2 0 (writeX 1 0xFFFFFFFFFFFFFFFF inRun))
      (fun t => t.pc = 1) = true := by decide +kernel

-- V46-45: BGE x1, x2, 2
theorem test_bge_V46_45 :
    runs 0x0D120002 (writeX 2 5 (writeX 1 5 inRun))
      (fun t => t.pc = 2) = true := by decide +kernel

-- V46-46: BGEU x1, x2, 2
theorem test_bgeu_V46_46 :
    runs 0x0F120002 (writeX 2 0xFFFFFFFFFFFFFFFF (writeX 1 0 inRun))
      (fun t => t.pc = 1) = true := by decide +kernel

-- V46-48: a fetch at pc = IMEM_WORDS.
theorem test_fetchFault_V46_48 :
    step (setPc 4096 inRun) = .next (errorEntry ⟨.fetchFault, 0x1000⟩ (setPc 4096 inRun)) := rfl

/-! ### The host interface -/

/-- Take the first turns of the list one after another. -/
def take (n : Nat) (s : State) : State :=
  match n with
  | 0 => s
  | k + 1 =>
    match step s with
    | .next t => take k t
    | .fault _ => s
    | .refused _ => s

/-- A host write. -/
def put (addr width : Nat) (data : Word) : Turn := .bus (.write addr width data)

-- R102, R103, R376, R378: a host loads NOP and HALT, sets START_PC to 1, starts the kernel, and the run ends there.
theorem test_hostStartsARun :
    let t := take 5 { State.reset with
      turns := [put 0x10000 32 0x02000000, put 0x10004 32 0x01000000, put 0x28 64 1, put 0x00 64 1] }
    (statusWord t, t.pc, irq t) = (2, 1, false) := by decide +kernel

-- R48, R375: KTHRESH is clamped; R32: x0 stays 0; R43: IE is bit 3 of STATUS.
theorem test_hostRegisters :
    busRead (busWrite 0x30 64 2 State.reset) 0x30 64 = some 3 ∧
    busRead (busWrite 0x100 64 7 State.reset) 0x100 64 = some 0 ∧
    busRead (busWrite 0x178 64 7 State.reset) 0x178 64 = some 7 ∧
    busRead (busWrite 0x08 64 0xFF State.reset) 0x08 64 = some 8 := by decide +kernel

-- R102, R375, R376: a read of the wrong width, past DMEM, at a reserved offset or during a run is 0.
theorem test_hostReadsZero :
    busRead State.reset 0x100000 32 = some 0 ∧ busRead State.reset 0x110000 64 = some 0 ∧
    busRead State.reset 0x180 64 = some 0 ∧ busRead inRun 0x28 64 = some 0 ∧ busRead inRun 0x08 64 = some 1 ∧
    busRead State.reset 0x200000 64 = none := by decide +kernel

-- R377: a CTRL write of 5 is CLR and then GO; of 3 it is a soft reset alone.
theorem test_ctrlOrder :
    busWrite 0x00 64 5 { State.reset with err := true, cause := 3 } = { State.reset with run := true } ∧
    (busWrite 0x00 64 3 (writeX 1 7 State.reset)).run = false ∧ readX (busWrite 0x00 64 3 (writeX 1 7 State.reset)) 1 = 0 := by
  decide +kernel

-- R401: a power-on reset in a run.
theorem test_powerOnReset :
    step { writeX 1 7 inRun with turns := [.powerOn] } = .next { State.reset with powerOns := 1 } := rfl

/-! ### The assembler's side -/

-- R137: the worked example of `LI x1, 0x1_0000_0000`, with its words, and both ends of the short form.
theorem test_expandLi :
    (expandLi 1 0x100000000).map encode = [0x19100001, 0x1A110010, 0x19110000, 0x1A110010, 0x19110000] ∧
    expandLi 1 0xFFFFFFFFFFFF8000 = [.addi 1 0 (-32768)] ∧ expandLi 1 0x7FFF = [.addi 1 0 32767] ∧
    expandLi 1 0x8000 = [.ori 1 0 0x8000] := by decide +kernel

-- R138: three worked encodings as text, one with a memory operand and one with a CSR name.
theorem test_assembleLine :
    assembleLine ⟨0, []⟩ "ld x2, 8(x1) ; a comment" = some [.ld 2 1 8] ∧
    assembleLine ⟨0, []⟩ "CSRW KTHRESH, x1" = some [.csrw 1 6] ∧
    assembleLine ⟨0, []⟩ "MEXP b4, b1, b2, b3" = some [.mexp 4 1 2 3] := by decide +kernel

-- R137's example, as the spec writes it; a `_` that does not stand between two digits is rejected (log 23).
theorem test_assembleLine_groups :
    (assembleLine ⟨0, []⟩ "LI x1, 0x1_0000_0000").map (·.map encode) =
      some [0x19100001, 0x1A110010, 0x19110000, 0x1A110010, 0x19110000] ∧
    assembleLine ⟨0, []⟩ "LI x1, 0x_1" = none ∧ assembleLine ⟨0, []⟩ "LI x1, 1__0" = none ∧
    assembleLine ⟨0, []⟩ "LI x1, 1_" = none ∧ assembleLine ⟨0, []⟩ "LI x1, -_1" = none := by decide +kernel

-- R135, R136: a label, a target outside the field's range, a pseudo-instruction, and operands that do not exist.
theorem test_assembleLabel :
    assembleLine ⟨11, [("loop", 4)]⟩ "BNEZ x6, loop" = some [.bne 6 0 (-7)] ∧
    assembleLine ⟨11, [("far", 40000)]⟩ "BNEZ x6, far" = none ∧
    assembleLine ⟨0, []⟩ "NOT x1, x1" = none ∧ assembleLine ⟨0, []⟩ "BMOV b8, b0" = none ∧
    assembleLine ⟨0, []⟩ "SLLI x1, x1, 64" = none := by decide +kernel

theorem test_asmText : asmText (.bne 6 3 (-7)) = "BNE x6, x3, -7" ∧ asmText (.csrw 1 6) = "CSRW KTHRESH, x1" ∧
    asmText (.ld 2 1 8) = "LD x2, 8(x1)" := by decide +kernel

/-! ### Witnesses: encoding and decoding -/

theorem witness_DecodeEncodeRoundTrip : (Instr.mexp 7 6 5 4).wellFormed = true ∧
    (Instr.slli 15 15 63).wellFormed = true ∧ (Instr.csrr 15 4095).wellFormed = true := by decide

theorem witness_EncodeDecodeRoundTrip : decode 0x1AFF003F = .instr (.slli 15 15 63) := by decide +kernel

theorem witness_DecodeMatchesOpcodeTable :
    (⟨"MEXP", 0x45000000, 0xFF8888FF⟩ : MaskRow) ∈ maskTable ∧
    (⟨"MEXP", 0x45000000, 0xFF8888FF⟩ : MaskRow).accepts 0x45412300 = true ∧
    decode 0x45412300 = .instr (.mexp 4 1 2 3) := by decide +kernel

/-! ### Witnesses: steps and errors -/

/-- A running machine with a word at its pc. -/
def holding (w : InstrWord) (s : State) : State := imemWrite s.pc.toNat w s

theorem witness_StepRunsDecodedInstruction :
    let s := holding 0x10312000 (setPc 4095 inRun)
    s.run = true ∧ s.pc.toNat < s.params.imemWords ∧ decode (imemRead s s.pc.toNat) = .instr (.add 3 1 2) ∧
    s.turns = [] ∧ ({ s with turns := [.kernel, .powerOn] } : State).turns = .kernel :: [.powerOn] := by
  decide +kernel

theorem witness_FetchBeyondImemStops :
    (setPc 4096 inRun).run = true ∧ (setPc 4096 inRun).turns = [] ∧
    ({ setPc 4096 inRun with turns := [.kernel] } : State).turns = .kernel :: [] ∧
    (setPc 4096 inRun).params.imemWords ≤ (setPc 4096 inRun).pc.toNat := by decide +kernel

-- Every end of every range of unassigned opcodes, and words that only their reserved fields make illegal.
theorem witness_IllegalWordsStop :
    let s := holding 0x33000001 inRun
    s.run = true ∧ s.turns = [] ∧ ({ s with turns := [.kernel] } : State).turns = .kernel :: [] ∧
    s.pc.toNat < s.params.imemWords ∧ imemRead s s.pc.toNat = 0x33000001 ∧
    (∀ r ∈ maskTable, r.accepts 0x33000001 = false) ∧ (∀ r ∈ maskTable, r.accepts 0x30810000 = false) ∧
    (∀ op ∈ [0x00, 0x05, 0x07, 0x1D, 0x1F, 0x2A, 0x2F, 0x3E, 0x3F, 0x46, 0x47, 0x4B, 0x4F, 0x54, 0xFF],
      (imemRead (holding (BitVec.ofNat 32 (op * 2 ^ 24)) inRun) 0).toNat / 2 ^ 24 = op) := by decide +kernel

theorem witness_IdleKernelKeepsState : State.reset.run = false ∧ State.reset.turns = [] ∧
    ({ State.reset with turns := [.kernel, .powerOn] } : State).turns = .kernel :: [.powerOn] := by decide

theorem witness_ErrorsArePrecise :
    inRun.err = false ∧ exec (.bdiv 3 1 2) inRun = .next (errorEntry ⟨.divisionByZero, 0⟩ inRun) ∧
    (errorEntry ⟨.divisionByZero, 0⟩ inRun).err = true := ⟨rfl, rfl, rfl⟩

theorem bigsFit_inRun : BigsFit inRun := by unfold BigsFit; decide +kernel

/-- The running machine has the invariant, wherever its pc is and whoever moves next. -/
theorem inv_inRun (pc : Index) (turns : List Turn) : Inv (setPc pc { inRun with turns := turns }) :=
  ⟨show Params.default.legal = true by decide, rfl, bigsFit_inRun, show 3 ≤ kthreshReset.toNat by decide,
    show 1 + 0 + 0 ≤ 1 by decide, fun _ => ⟨rfl, rfl, rfl⟩, nofun, ⟨rfl, rfl⟩, ⟨rfl, rfl⟩⟩

theorem witness_CausesAreThoseOfTheTable :
    Inv inRun ∧ inRun.err = false ∧ exec (.mmod 3 1 2) inRun = .next (errorEntry ⟨.divisionByZero, 0⟩ inRun) ∧
    (errorEntry ⟨.divisionByZero, 0⟩ inRun).err = true := ⟨inv_inRun 0 [], rfl, rfl, rfl⟩

theorem witness_InstructionsLeaveTheRestAlone :
    exec (.addi 3 1 5) inRun = .next (after (.addi 3 1 5) inRun) ∧ writesC (.addi 3 1 5) = false ∧
    writesAcc (.addi 3 1 5) = false := ⟨rfl, rfl, rfl⟩

-- A host write in a run, and the fetch fault.
theorem witness_StepKeepsInvariant :
    Inv (setPc 0 { inRun with turns := [put 0x08 64 8] }) ∧
    step (setPc 0 { inRun with turns := [put 0x08 64 8] }) = .next { inRun with ie := true } ∧
    Inv (setPc 4096 { inRun with turns := [] }) ∧
    step (setPc 4096 inRun) = .next (errorEntry ⟨.fetchFault, 4096⟩ (setPc 4096 inRun)) :=
  ⟨inv_inRun _ _, rfl, inv_inRun _ _, rfl⟩

-- Both ends of the legal ranges (R7 to R9).
theorem witness_ResetHasInvariant :
    Params.legal ⟨4, 16, 64, 0⟩ = true ∧ Params.legal ⟨65535, 16384, 1048576, 0x200000⟩ = true ∧
    Params.legal Params.default = true ∧ Params.legal ⟨3, 16, 64, 0⟩ = false := by decide

theorem witness_ResetValues : State.reset = State.resetOf Params.default := rfl

/-! ### Witnesses: instructions -/

-- The eleven CSRs, the first unassigned number and the last.
theorem witness_CsrReadResult :
    (∀ n, n < 11 → (csrRead inRun n).isSome = true) ∧ (0x00B : Nat) < 4096 ∧ (0x00A : Nat) < 0x00B ∧ (0xFFF : Nat) < 4096 ∧
    csrRead inRun 0x00B = none := by decide

theorem witness_CsrWriteResult :
    (0x005 : Nat) < 4096 ∧ (0x006 : Nat) < 4096 ∧ (0x004 : Nat) ≠ 0x005 ∧ (0x004 : Nat) ≠ 0x006 ∧
    (0xFFF : Nat) < 4096 ∧ stopsAs 0x04100004 inRun 1 0x04100004 0 = true := by decide +kernel

theorem witness_ShiftResults : (0 : Nat) < 64 ∧ (63 : Nat) < 64 ∧ (64 : Nat) ≤ 64 ∧ (64 : Nat) < 65536 ∧
    (65535 : Nat) < 65536 := by decide

theorem witness_BranchResults :
    BitVec.ofInt 32 ((setPc 11 inRun).pc.toNat + (-7 : BitVec 16).toInt) = (4 : Index) := by decide

/-- The largest value of LMAX = 256 limbs. -/
def full : State := setB 1 ((10 ^ 2304 - 1 : Nat) : Int) inRun

theorem witness_BigNegateAndMove : len (readB full 1) ≤ full.params.lmax ∧ len (readB full 1) = 256 := by decide +kernel

theorem witness_FitsOrStops :
    len (readB full 1 + readB full 0) ≤ full.params.lmax ∧
    full.params.lmax < len (readB full 1 + readB (setB 2 1 full) 2) := by decide +kernel

theorem witness_BigConstruction : 4 ≤ inRun.params.lmax := by decide

theorem witness_DivisionAndRemainder :
    let s := setB 2 (-2) (setB 1 7 inRun)
    len (readB s 1) ≤ s.params.lmax ∧ len (readB s 2) ≤ s.params.lmax ∧ readB s 2 ≠ 0 ∧ readB s 3 = 0 := by
  decide +kernel

theorem witness_DivisionPrimitives : (-2 : Int) ≠ 0 ∧ (0 : Int) < 5 ∧ (0 : Int) ≤ 3 ∧ (3 : Int) < 5 ∧ (5 : Int) ∣ -7 - 3 := by
  decide

theorem witness_LimbsAreCanonical : 1 ≤ 2 ∧ (1000000000 : Int).natAbs < (10 ^ 9) ^ 2 ∧ (1000000000 : Int) ≠ 0 ∧
    len 1000000000 = 2 ∧ len 999999999 = 1 ∧ len 0 = 1 := by decide +kernel

theorem witness_KaratsubaEndsWithTheProduct : (3 : Nat) ≤ 3 ∧ (999999999 : Nat) < 10 ^ 9 ∧
    kara 3 1000000001 1000000000 999999999 = some 999999999000000000 := by decide +kernel

/-- Operands 10^18, 0 and -1, and the moduli 10^9 + 7 in b4, 0 in b5 and -5 in b6. -/
def moduli : State := setB 1 (1000000000000000000 : Int) (setB 3 (-1) (setB 4 1000000007 (setB 6 (-5) inRun)))

theorem witness_ModularResults : 0 < readB moduli 4 ∧ len (readB moduli 4) ≤ moduli.params.lmax := by decide +kernel

theorem witness_ModularExponentiation : 0 < readB moduli 4 ∧ len (readB moduli 4) ≤ moduli.params.lmax ∧
    0 < readB moduli 1 ∧ readB moduli 2 = 0 ∧ readB moduli 3 < 0 := by decide +kernel

theorem witness_BadModulusStops : readB moduli 5 = 0 ∧ readB moduli 6 < 0 ∧
    Instr.mexp 0 1 2 5 ∈ [Instr.mmod 0 1 5, .madd 0 1 2 5, .msub 0 1 2 5, .mmul 0 1 2 5, .msqr 0 1 5, .mexp 0 1 2 5,
      .mredc 0 1 5, .mmont 0 1 2 5, .mtom 0 1 5] := by decide +kernel

theorem witness_MontgomeryResults : 0 < readB moduli 4 ∧ len (readB moduli 4) ≤ moduli.params.lmax ∧
    Int.gcd (readB moduli 4) 10 = 1 ∧ Int.gcd (readB (setB 4 25 moduli) 4) 10 ≠ 1 := by decide +kernel

theorem witness_MontgomeryLaws : (0 : Int) < 7 ∧ Int.gcd 7 10 = 1 ∧ (0 : Int) < 1 ∧ Int.gcd 1 10 = 1 := by decide

/-! ### Witnesses: loads and stores -/

theorem witness_MemoryIsLittleEndian : (7 : Nat) < 8 ∧ ((0xFF : Nat) < 0x100 ∨ 0x100 + 8 ≤ (0xFF : Nat)) ∧
    ((0x108 : Nat) < 0x100 ∨ 0x100 + 8 ≤ (0x108 : Nat)) := by decide

-- x1 = 0xFFF8: the last word of DMEM, the first one past it, and a misaligned one.
theorem witness_LoadWordResult :
    let s := writeX 1 0xFFF8 inRun
    effectiveAddress (readX s 1) 0 = 0xFFF8 ∧ (0xFFF8 : Word).toNat % 8 = 0 ∧
    (0xFFF8 : Word).toNat + 8 ≤ s.params.dmemBytes ∧ effectiveAddress (readX s 1) 8 = 0x10000 ∧
    s.params.dmemBytes < (0x10000 : Word).toNat + 8 ∧ effectiveAddress (readX s 1) 1 = 0xFFF9 ∧
    (0xFFF9 : Word).toNat % 8 ≠ 0 := by decide +kernel

theorem witness_StoreWordResult :
    let s := writeX 1 0xFFF8 inRun
    effectiveAddress (readX s 1) (-8) = 0xFFF0 ∧ (0xFFF0 : Word).toNat % 8 = 0 ∧
    (0xFFF0 : Word).toNat + 8 ≤ s.params.dmemBytes ∧ s.params.dmemBytes < (effectiveAddress (readX s 1) 8).toNat + 8 ∧
    (effectiveAddress (readX s 1) 7).toNat % 8 ≠ 0 := by decide +kernel

/-- An image at 0xFFE8: the words given, the last at the end of DMEM when there are three. -/
def image (ws : List Word) : State := memWriteWords 0xFFE8 ws (writeX 1 0xFFE8 inRun)

-- A negative image of two limbs that ends with DMEM.
theorem witness_LoadImageResult :
    let s := image [0x8000000000000002, 5, 999999999]
    (effectiveAddress (readX s 1) 0).toNat = 0xFFE8 ∧ (memRead s 0xFFE8).toNat % 2 ^ 32 = 2 ∧
    0xFFE8 + 8 + 8 * 2 ≤ s.params.dmemBytes ∧ (memRead s 0xFFE8).toNat / 2 ^ 32 % 2 ^ 31 = 0 ∧ 2 ≤ s.params.lmax ∧
    (∀ j, j < 2 → (memRead s (0xFFE8 + 8 + 8 * j)).toNat < 10 ^ 9) := by decide +kernel

-- Misaligned; header past DMEM; reserved bits; no limbs; one limb too many; second limb word past DMEM; bad limbs.
theorem witness_LoadImageErrors :
    (effectiveAddress (readX (image []) 1) 4).toNat % 8 ≠ 0 ∧
    (image []).params.dmemBytes < (effectiveAddress (readX (image []) 1) 24).toNat + 8 ∧
    (memRead (image [0x100000001]) 0xFFE8).toNat / 2 ^ 32 % 2 ^ 31 ≠ 0 ∧
    (memRead (image [0]) 0xFFE8).toNat % 2 ^ 32 = 0 ∧
    (image [257]).params.lmax < (memRead (image [257]) 0xFFE8).toNat % 2 ^ 32 ∧
    (memRead (image [3]) 0xFFE8).toNat % 2 ^ 32 = 3 ∧ (image [3]).params.dmemBytes < 0xFFE8 + 8 + 8 * 2 + 8 ∧
    (∀ k, k < 2 → 0xFFE8 + 8 + 8 * k + 8 ≤ (image [3]).params.dmemBytes) ∧
    (memRead (image [2, 0, 1000000000]) 0xFFE8).toNat % 2 ^ 32 = 2 ∧
    10 ^ 9 ≤ (memRead (image [2, 0, 1000000000]) (0xFFE8 + 8 + 8 * 1)).toNat ∧
    (∀ k, k < 1 → (memRead (image [2, 0, 1000000000]) (0xFFE8 + 8 + 8 * k)).toNat < 10 ^ 9) := by decide +kernel

-- Values of two and three limbs at 0xFFE8: one fits, the other's last word does not.
theorem witness_StoreImageResult :
    let s := setB 2 (1000000000000000000 : Int) (setB 1 (-1000000000) (image []))
    len (readB s 1) = 2 ∧ (effectiveAddress (readX s 1) 0).toNat % 8 = 0 ∧ 0xFFE8 + 8 * (2 + 1) ≤ s.params.dmemBytes ∧
    len (readB s 2) = 3 ∧ s.params.dmemBytes < 0xFFE8 + 8 * 3 + 8 ∧
    (∀ k, k < 3 → 0xFFE8 + 8 * k + 8 ≤ s.params.dmemBytes) ∧ (effectiveAddress (readX s 1) 4).toNat % 8 ≠ 0 := by
  decide +kernel

theorem witness_StoredImageLoadsBack :
    let s := setB 1 (-1000000000) (image [])
    s.params.legal = true ∧ s.err = false ∧ len (readB s 1) ≤ s.params.lmax ∧
    exec (.bst 1 1 0) s = .next (after (.bst 1 1 0) s) ∧ (after (.bst 1 1 0) s).err = false :=
  ⟨by decide, rfl, by decide +kernel, rfl, by decide +kernel⟩

/-! ### Witnesses: the host interface -/

theorem witness_GoStartsARun : inRun.run = true ∧ State.reset.run = false := by decide

theorem witness_ClrAcknowledgesARun : (errorEntry ⟨.domainError, 3⟩ inRun).run = false := by decide

theorem witness_CtrlBitsActInOrder : (2 : Word).toNat / 2 % 2 = 1 ∧ (5 : Word).toNat / 2 % 2 = 0 ∧
    State.reset.run = false ∧ inRun.run = true := by decide

theorem witness_SoftResetKeepsMemoryOnly : State.reset.run = false ∧ inRun.run = true := by decide

theorem witness_RunShutsTheHostOut : inRun.run = true ∧ ¬ (0x30 = inRun.params.base + 0x08 ∧ 64 = 64) ∧
    ¬ (0x30 = inRun.params.base ∧ 64 = 64 ∧ (7 : Word).toNat / 2 % 2 = 1) ∧
    busRead inRun 0x38 64 ≠ none ∧ busRead inRun 0x38 64 ≠ some 0 := by decide +kernel

-- An error record that the host reads: each of CAUSE, EPC and EINFO differs. Below 0x10000: the last offset of a
-- register, the first past X15, a misaligned one; above the IMEM window: both ends.
theorem witness_HostRegistersReadBack :
    let s := errorEntry ⟨.capacityError, 257⟩ (setPc 11 inRun)
    s.run = false ∧ (0 : Nat) = s.params.base ∧ (0x10, s.cause.toNat) ∈ registerMap s ∧ (0x18, 11) ∈ registerMap s ∧
    (0x20, 257) ∈ registerMap s ∧ (0x178, 0) ∈ registerMap s ∧ (0x208, 0) ∈ registerMap s ∧
    ∀ off ∈ [0x04, 0x68, 0xF8, 0x180, 0x210, 0xFFFF, 0x20000, 0xFFFFF],
      (off < 0x10000 ∨ 0x20000 ≤ off ∧ off < 0x100000) ∧ off ∉ (registerMap s).map Prod.fst := by decide +kernel

-- The last word of DMEM, the first offset past it, and the last offset of the window.
theorem witness_DmemWindowAccess : (0xFFF8 : Nat) < 0x100000 ∧
    (64 = 64 ∧ 0xFFF8 % 8 = 0 ∧ 0xFFF8 + 8 ≤ State.reset.params.dmemBytes ∧ State.reset.run = false) ∧
    ¬ (64 = 64 ∧ 0x10000 % 8 = 0 ∧ 0x10000 + 8 ≤ State.reset.params.dmemBytes ∧ State.reset.run = false) ∧
    (0xFFFFF : Nat) < 0x100000 ∧ ¬ (64 = 64 ∧ 0xFFFFF % 8 = 0 ∧ 0xFFFFF + 8 ≤ State.reset.params.dmemBytes ∧
      State.reset.run = false) := by decide

theorem witness_ImemWindowAccess : (0x3FFC : Nat) < 0x10000 ∧
    (32 = 32 ∧ 0x3FFC % 4 = 0 ∧ 0x3FFC / 4 < State.reset.params.imemWords ∧ State.reset.run = false) ∧
    (0x4000 : Nat) < 0x10000 ∧ ¬ (32 = 32 ∧ 0x4000 % 4 = 0 ∧ 0x4000 / 4 < State.reset.params.imemWords ∧
      State.reset.run = false) := by decide

-- A host write, a host read inside the block, and a power-on reset.
theorem witness_OtherAgentsTakeTheirTurns :
    ({ inRun with turns := [put 0x08 64 8, .kernel] } : State).turns = put 0x08 64 8 :: [.kernel] ∧
    busRead { inRun with turns := [.bus (.read 0x38 64)] } 0x38 64 = some 0x4D4D4B01 ∧
    ({ inRun with turns := [.powerOn] } : State).turns = .powerOn :: [] := by decide +kernel

theorem witness_PlacedInstructionRunsNext : State.reset.run = false ∧
    State.reset.startPc.toNat < State.reset.params.imemWords ∧ (Instr.mexp 7 6 5 4).wellFormed = true := by decide

theorem witness_LoadConstantExpansion : (15 : XReg) ≠ 0 := by decide

end Sys2Proof.Tests
end

section
/-! PROOFS. What an instruction can do, said once: `Effect` lists the ways an instruction's next state arises from its
state, and `exec_answers` ties it to `exec`, one group of instructions at a time. -/

namespace Sys2Proof.Machine

/-- The next states an instruction can lead to, by the shared shapes of Machine/Ops.lean. -/
inductive Effect (s : State) : State → Prop
  /-- 60_exceptions.md R365: the error entry and nothing else. -/
  | error (e : Error) : Effect s (errorEntry e s)
  /-- 46_scalar_control.md R310. -/
  | halt : Effect s (endRun s)
  /-- 46_scalar_control.md R311. -/
  | advance : Effect s (retire s)
  /-- 10_state.md R47, R313: a write of FLAGS. -/
  | flags (v : Word) : Effect s (retire { s with c := flagsBit v })
  /-- 10_state.md R48, R313: a write of KTHRESH. -/
  | threshold (v : Word) : Effect s (retire { s with kthresh := kthreshClamp v })
  /-- A branch taken or not (46_scalar_control.md R330 to R335). -/
  | goTo (p : Index) : Effect s (setPc p s)
  /-- A jump with its link (46_scalar_control.md R328, R329). -/
  | link (d : XReg) (v : Word) (p : Index) : Effect s (setPc p (writeX d v s))
  /-- A scalar result. -/
  | scalar (d : XReg) (v : Word) : Effect s (retire (writeX d v s))
  /-- A new ACC with its carry (40_limb_mac.md R153 to R156). -/
  | acc (a : Acc) (c : Bool) : Effect s (retire (setC c (setAcc a s)))
  /-- A part split off ACC (40_limb_mac.md R159, R160). -/
  | split (d : XReg) (v : Word) (a : Acc) : Effect s (retire (writeX d v (setAcc a s)))
  /-- A big result that has at most LMAX limbs (41_bigint.md R180). -/
  | big (d : BReg) (v : Int) (h : len v ≤ s.params.lmax) : Effect s (retire (setB d v s))
  /-- Words stored inside DMEM (45_loadstore.md R291, R295). -/
  | store (a : Nat) (ws : List Word) (h : a + 8 * ws.length ≤ s.params.dmemBytes) :
      Effect s (retire (memWriteWords a ws s))

/-- A result is a next state that an instruction can lead to. -/
def Answers (s : State) (r : Result) : Prop := ∃ t, r = .next t ∧ Effect s t

/-! ### The shared shapes -/

theorem Effect.answers {s t : State} (h : Effect s t) : Answers s (.next t) := ⟨t, rfl, h⟩

theorem raise_answers (e : Error) (s : State) : Answers s (raise e s) := (Effect.error e).answers

theorem writeXNext_answers (d : XReg) (v : Word) (s : State) : Answers s (writeXNext d v s) :=
  (Effect.scalar d v).answers

theorem branch_answers (taken : Bool) (off : BitVec 16) (s : State) : Answers s (branch taken off s) :=
  (Effect.goTo _).answers

theorem writeBig_answers (d : BReg) (v : Int) (s : State) : Answers s (writeBig d v s) := by
  by_cases h : len v ≤ s.params.lmax
  · rw [writeBig_fits h]; exact (Effect.big d v h).answers
  · rw [writeBig_over (by omega)]; exact (Effect.error _).answers

theorem writeBigUnless_answers (check : Option Error) (d : BReg) (v : Unit → Int) (s : State) :
    Answers s (writeBigUnless check d v s) := by
  cases check with
  | none => exact writeBig_answers d (v ()) s
  | some e => exact raise_answers e s

/-! ### The instructions with shapes of their own -/

theorem execCsrr_answers (d : XReg) (n : Nat) (s : State) : Answers s (execCsrr d n s) := by
  rw [execCsrr]
  split
  · exact writeXNext_answers ..
  · exact raise_answers ..

theorem execCsrw_answers (r : XReg) (n : Nat) (s : State) : Answers s (execCsrw r n s) := by
  rw [execCsrw]
  split
  · next t h =>
    obtain ⟨_, rfl⟩ | ⟨_, rfl⟩ := csrWrite_cases h
    · exact (Effect.flags _).answers
    · exact (Effect.threshold _).answers
  · exact raise_answers ..

theorem execLd_answers (d b : XReg) (off : BitVec 16) (s : State) : Answers s (execLd d b off s) := by
  rw [execLd]
  split
  · exact raise_answers ..
  · exact writeXNext_answers ..

/-- 20_memory.md R88: a store of one word that passes its checks is a store inside DMEM. -/
theorem execSd_answers (a b : XReg) (off : BitVec 16) (s : State) : Answers s (execSd a b off s) := by
  rw [execSd]
  split
  · exact raise_answers ..
  · next h => exact (Effect.store _ [readX s a] (wordError_none_iff.1 h).2).answers

theorem execBld_answers (d : BReg) (b : XReg) (off : BitVec 16) (s : State) : Answers s (execBld d b off s) := by
  rw [execBld]
  split
  · exact raise_answers ..
  · exact writeBig_answers ..

/-- 20_memory.md R88: words that are all in range end inside DMEM. -/
theorem le_dmemBytes_of_firstOutOfRange {s : State} {a n : Nat} (h : firstOutOfRange s a (n + 1) = none) :
    a + 8 * (n + 1) ≤ s.params.dmemBytes := by
  have hall := firstOutOfRange_spec s a (n + 1)
  rw [h] at hall
  have hlast : a + 8 * n + 8 ≤ s.params.dmemBytes := of_decide_eq_true (hall n n.lt_succ_self)
  omega

/-- 45_loadstore.md R296: an image that passes the checks of BST lies inside DMEM. -/
theorem le_dmemBytes_of_imageError {s : State} {ea : Word} {v : Int} (h : imageError s ea v = none) :
    ea.toNat + 8 * (imageWords v).length ≤ s.params.dmemBytes := by
  rw [imageError] at h
  split at h
  · cases h
  · split at h
    · cases h
    · next hr => rw [length_imageWords]; exact le_dmemBytes_of_firstOutOfRange hr

theorem execBst_answers (a : BReg) (b : XReg) (off : BitVec 16) (s : State) : Answers s (execBst a b off s) := by
  rw [execBst]
  split
  · exact raise_answers ..
  · next h => exact (Effect.store _ _ (le_dmemBytes_of_imageError h)).answers

/-! ### Every instruction -/

/-- Every instruction answers a next state, by one of the effects. -/
theorem exec_answers (i : Instr) (s : State) : Answers s (exec i s) := by
  cases i
  case halt => exact Effect.halt.answers
  case nop => exact Effect.advance.answers
  case csrr d n => exact execCsrr_answers d n s
  case csrw r n => exact execCsrw_answers r n s
  case jal => exact (Effect.link ..).answers
  case jalr => exact (Effect.link ..).answers
  case beq | bne | blt | bge | bltu | bgeu => exact branch_answers ..
  case add | sub | and | or | xor | sll | srl | sltu | addi | ori | slli | srli | andi => exact writeXNext_answers ..
  case mullo | mulhu | acclo | acchi | bcmp | blen | blimb | bsgn => exact writeXNext_answers ..
  case mul128 | mac128 | accadd | accset => exact (Effect.acc ..).answers
  case accnorm | accpop => exact (Effect.split ..).answers
  case badd | bsub | bneg | bmul | kmul | bmov | bfromx | bli => exact writeBig_answers ..
  case bdiv | brem =>
    dsimp only [exec, execBdiv, execBrem]
    exact writeBigUnless_answers ..
  case mmod | madd | msub | mmul | msqr | mexp =>
    dsimp only [exec, execMmod, execMadd, execMsub, execMmul, execMsqr, execMexp]
    exact writeBigUnless_answers ..
  case mredc | mmont | mtom =>
    dsimp only [exec, execMredc, execMmont, execMtom]
    exact writeBigUnless_answers ..
  case ld d b off => exact execLd_answers d b off s
  case sd a b off => exact execSd_answers a b off s
  case bld d b off => exact execBld_answers d b off s
  case bst a b off => exact execBst_answers a b off s

/-- What an instruction can do: if it answers a next state, that state is one of the effects. -/
theorem exec_effect {i : Instr} {s t : State} (h : exec i s = .next t) : Effect s t := by
  obtain ⟨u, hu, he⟩ := exec_answers i s
  rw [hu] at h
  injection h with h
  exact h ▸ he

/-! ### What every effect leaves alone -/

@[simp] theorem memWriteWords_params (a : Nat) (ws : List Word) (s : State) :
    (memWriteWords a ws s).params = s.params := by rw [memWriteWords_keeps]

@[simp] theorem memWriteWords_err (a : Nat) (ws : List Word) (s : State) : (memWriteWords a ws s).err = s.err := by
  rw [memWriteWords_keeps]

theorem Effect.params_eq {s t : State} (h : Effect s t) : t.params = s.params := by
  cases h with
  | store a ws _ => exact memWriteWords_params a ws s
  | _ => rfl

/-- ERR changes only by the error entry. -/
theorem Effect.error_or_err_eq {s t : State} (h : Effect s t) : (∃ e, t = errorEntry e s) ∨ t.err = s.err := by
  cases h with
  | error e => exact .inl ⟨e, rfl⟩
  | store a ws _ => exact .inr (memWriteWords_err a ws s)
  | _ => exact .inr rfl

/-! ### Error stops -/

/-- The error entry is the error stop, with every register, flag, memory byte and model field kept. -/
theorem errorEntry_errorStop (e : Error) (s : State) : ErrorStop e s (errorEntry e s) := by
  refine ⟨rfl, rfl, rfl, rfl, rfl, rfl, rfl, rfl, rfl, rfl, rfl, ?irq, fun _ => rfl, fun _ => rfl, ⟨rfl, rfl⟩,
    ⟨fun _ => rfl, fun _ => rfl⟩, ⟨rfl, rfl, rfl, rfl⟩⟩
  case irq => simp [irq]

/-- Settles O9: only the error entry raises ERR, and it is the whole effect. -/
theorem errorsArePrecise : Obligations.ErrorsArePrecise := by
  intro i s t hs hexec ht
  obtain ⟨e, rfl⟩ | herr := (exec_effect hexec).error_or_err_eq
  · exact ⟨e, errorEntry_errorStop e s⟩
  · simp [herr, hs] at ht

end Sys2Proof.Machine
end

section
/-! PROOFS. The invariant of the machine: one rule for each update of the state, then one for each mover of a step. -/

namespace Sys2Proof.Machine

/-! ### One rule for each update -/

section
variable {s : State}

/-- While the kernel runs there is no error. -/
theorem Inv.err_of_run (h : Inv s) (hr : s.run = true) : s.err = false := by
  have hone := h.oneStatus
  cases he : s.err with
  | false => rfl
  | true => simp [hr, he] at hone

/-- pc moves only without an error record, which names it (60_exceptions.md R365). -/
theorem Inv.setPc (h : Inv s) (he : s.err = false) (p : Index) : Inv (setPc p s) :=
  { h with record := fun ht => absurd (he.symm.trans ht) Bool.false_ne_true }

theorem Inv.retire (h : Inv s) (he : s.err = false) : Inv (retire s) := h.setPc he _

/-- 10_state.md R32: a write never stores anything for x0. -/
theorem Inv.writeX (h : Inv s) (d : XReg) (v : Word) : Inv (writeX d v s) := by
  refine { h with zero := ?_ }
  by_cases hd : d = 0
  · simpa [hd] using h.zero
  · have hne : d.val ≠ 0 := fun e => hd (Fin.ext e)
    simpa [hd, Vector.getElem_set_ne, hne] using h.zero

theorem Inv.setB (h : Inv s) {d : BReg} {v : Int} (hv : len v ≤ s.params.lmax) : Inv (setB d v s) := by
  refine { h with bigs := fun j => ?_ }
  rw [readB_setB, setB_params]
  split
  · exact hv
  · exact h.bigs j

theorem Inv.setAcc (h : Inv s) (a : Acc) : Inv (setAcc a s) := { h with }

theorem Inv.setC (h : Inv s) (c : Bool) : Inv (setC c s) := { h with }

theorem Inv.setIe (h : Inv s) (v : Bool) : Inv { s with ie := v } := { h with }

theorem Inv.setStartPc (h : Inv s) (p : Index) : Inv { s with startPc := p } := { h with }

theorem Inv.setTurns (h : Inv s) (ts : List Turn) : Inv { s with turns := ts } := { h with }

theorem Inv.setHostRead (h : Inv s) (v : Word) : Inv { s with hostRead := v } := { h with }

/-- 10_state.md R48: what a write of KTHRESH stores is at least 3. -/
theorem Inv.setKthresh (h : Inv s) (v : Word) : Inv { s with kthresh := kthreshClamp v } := by
  refine { h with kthresh := ?_ }
  have hclamp := kthreshClamp_legal v
  show 3 ≤ (kthreshClamp v).toNat
  omega

theorem Inv.setDmem (h : Inv s) {m : Memory} (hwf : m.wf = true) (hin : m.within s.params.dmemBytes = true) :
    Inv { s with dmem := m } := { h with dmem := ⟨hwf, hin⟩ }

theorem Inv.setImem (h : Inv s) {m : Memory} (hwf : m.wf = true) (hin : m.within (4 * s.params.imemWords) = true) :
    Inv { s with imem := m } := { h with imem := ⟨hwf, hin⟩ }

theorem Inv.memWriteWords (h : Inv s) {a : Nat} {ws : List Word} (ha : a + 8 * ws.length ≤ s.params.dmemBytes) :
    Inv (memWriteWords a ws s) := by
  rw [memWriteWords_keeps]
  exact h.setDmem (wf_memWriteWords h.dmem.1 a ws) (within_memWriteWords h.dmem.2 a ws ha)

theorem Inv.imemWrite (h : Inv s) {i : Nat} (hi : i < s.params.imemWords) (w : InstrWord) : Inv (imemWrite i w s) :=
  h.setImem (wf_imemWrite h.imem.1 i w) (within_storeLE h.imem.2 (4 * i) 4 w.toNat (by omega))

/-- 60_exceptions.md R361: every cause has a code from 1 to 8. -/
theorem ErrorCause.code_range (c : ErrorCause) : 1 ≤ c.code.toNat ∧ c.code.toNat ≤ 8 := by
  cases c <;> decide

theorem Inv.errorEntry (h : Inv s) (e : Error) : Inv (errorEntry e s) :=
  { h with
    oneStatus := le_rfl
    noRecord := fun ht => absurd ht.symm Bool.false_ne_true
    record := fun _ => ⟨e.cause.code_range.1, e.cause.code_range.2, rfl⟩ }

/-- A run that ends normally had no error (10_state.md R40). -/
theorem Inv.endRun (h : Inv s) (hr : s.run = true) : Inv (endRun s) :=
  { h with oneStatus := by simp [h.err_of_run hr] }

theorem Inv.go (h : Inv s) : Inv (go s) :=
  { h with
    oneStatus := le_rfl
    noRecord := fun _ => ⟨rfl, rfl, rfl⟩
    record := fun ht => absurd ht Bool.false_ne_true }

theorem Inv.clr (h : Inv s) : Inv (clr s) :=
  { h with
    oneStatus := by simpa using Bool.toNat_le s.run
    noRecord := fun _ => ⟨rfl, rfl, rfl⟩
    record := fun ht => absurd ht Bool.false_ne_true }

end

/-! ### Reset -/

theorem len_zero : len 0 = 1 := rfl

theorem Params.one_le_lmax {p : Params} (hp : p.legal = true) : 1 ≤ p.lmax := by
  simp only [Params.legal, Bool.and_eq_true, decide_eq_true_eq] at hp
  omega

/-- The state after power-on reset has the invariant, for every legal choice of the parameters. -/
theorem inv_resetOf {p : Params} (hp : p.legal = true) : Inv (State.resetOf p) where
  legal := hp
  zero := rfl
  bigs j := by
    have hz : readB (State.resetOf p) j = 0 := by simp [readB, State.resetOf]
    rw [hz, len_zero]
    exact Params.one_le_lmax hp
  kthresh := show 3 ≤ kthreshReset.toNat by decide
  oneStatus := Nat.zero_le 1
  noRecord _ := ⟨rfl, rfl, rfl⟩
  record ht := absurd ht Bool.false_ne_true
  imem := ⟨rfl, rfl⟩
  dmem := ⟨rfl, rfl⟩

theorem Inv.powerOnReset {s : State} (h : Inv s) : Inv (powerOnReset s) := { inv_resetOf h.legal with }

/-! ### The kernel -/

/-- Every effect of an instruction of a running kernel keeps the invariant. -/
theorem Inv.effect {s t : State} (h : Inv s) (hr : s.run = true) (ht : Effect s t) : Inv t := by
  have he := h.err_of_run hr
  cases ht with
  | error e => exact h.errorEntry e
  | halt => exact h.endRun hr
  | advance => exact h.retire he
  | flags v => exact (h.setC _).retire he
  | threshold v => exact (h.setKthresh v).retire he
  | goTo p => exact h.setPc he p
  | link d v p => exact (h.writeX d v).setPc he p
  | scalar d v => exact (h.writeX d v).retire he
  | acc a c => exact ((h.setAcc a).setC c).retire he
  | split d v a => exact ((h.setAcc a).writeX d v).retire he
  | big d v hv => exact (h.setB hv).retire he
  | store a ws ha => exact (h.memWriteWords ha).retire ((memWriteWords_err a ws s).trans he)

/-- A step of the kernel that changes anything is the effect of an instruction or an error entry. -/
theorem kernelStep_effect {s t : State} (h : kernelStep s = .next t) : t = s ∨ s.run = true ∧ Effect s t := by
  obtain ⟨_, rfl⟩ | ⟨hr, _, rfl⟩ | ⟨w, _, hr, _, _, rfl⟩ | ⟨_, _, hr, _, _, hexec⟩ := kernelStep_cases h
  · exact .inl rfl
  · exact .inr ⟨hr, .error _⟩
  · exact .inr ⟨hr, .error _⟩
  · exact .inr ⟨hr, exec_effect hexec⟩

theorem Inv.kernelStep {s t : State} (h : Inv s) (ht : kernelStep s = .next t) : Inv t := by
  obtain rfl | ⟨hr, he⟩ := kernelStep_effect ht
  · exact h
  · exact h.effect hr he

theorem kernelStep_params {s t : State} (h : kernelStep s = .next t) : t.params = s.params := by
  obtain rfl | ⟨_, he⟩ := kernelStep_effect h
  · rfl
  · exact he.params_eq

/-! ### The host -/

/-- 70_reset_and_hazards.md R402: a soft reset keeps the memories of the state or of the next one. -/
theorem softResetKeeps_cases (s : State) : softResetKeeps s = s ∨ kernelStep s = .next (softResetKeeps s) := by
  unfold softResetKeeps
  split
  · split
    · next ht => exact .inr ht
    · exact .inl rfl
    · exact .inl rfl
  · exact .inl rfl

theorem Inv.softReset {s : State} (h : Inv s) : Inv (softReset s) := by
  obtain ⟨hinv, hparams⟩ : Inv (softResetKeeps s) ∧ (softResetKeeps s).params = s.params := by
    obtain heq | hk := softResetKeeps_cases s
    · rw [heq]; exact ⟨h, rfl⟩
    · exact ⟨h.kernelStep hk, kernelStep_params hk⟩
  exact { inv_resetOf h.legal with imem := hparams ▸ hinv.imem, dmem := hparams ▸ hinv.dmem }

theorem Inv.ctrlWrite {s : State} (h : Inv s) (v : Word) : Inv (ctrlWrite v s) := by
  obtain ⟨_, heq⟩ | ⟨_, _, heq⟩ | ⟨_, _, heq⟩ := ctrlWrite_cases v s
  · rw [heq]; exact h.softReset
  · rw [heq]; exact h
  · have hclr : Inv (if dataBit v 2 then Machine.clr s else s) := by split <;> [exact h.clr; exact h]
    rw [heq]
    split <;> [exact hclr.go; exact hclr]

theorem Inv.hostRegWrite {s : State} (h : Inv s) (r : HostReg) (v : Word) : Inv (hostRegWrite r v s) := by
  cases r
  case ctrl => exact h.ctrlWrite v
  case status => exact h.setIe _
  case startPc => exact h.setStartPc _
  case kthresh => exact h.setKthresh v
  case flags => exact h.setC _
  case x i => exact h.writeX i v
  case accLo | accHi => exact h.setAcc _
  case cause | epc | einfo | id | lmax | imemw | dmemb | pc => exact h

/-- 20_memory.md R103: an access reaches a word of IMEM only inside it. -/
theorem lt_imemWords_of_hostTarget {p : Params} {off width i : Nat} (h : hostTarget p off width = .imemWord i) :
    i < p.imemWords := by
  unfold hostTarget at h
  split at h
  · split at h
    · next hin => injection h with h; exact h ▸ hin.2.2
    · cases h
  · split at h
    · split at h <;> cases h
    · split at h
      · split at h <;> cases h
      · cases h

/-- 20_memory.md R102: an access reaches a word of DMEM only inside it. -/
theorem le_dmemBytes_of_hostTarget {p : Params} {off width a : Nat} (h : hostTarget p off width = .dmemWord a) :
    a + 8 ≤ p.dmemBytes := by
  unfold hostTarget at h
  split at h
  · split at h <;> cases h
  · split at h
    · split at h
      · next hin => injection h with h; exact h ▸ hin.2.2
      · cases h
    · split at h
      · split at h <;> cases h
      · cases h

theorem Inv.busWrite {s : State} (h : Inv s) (addr width : Nat) (v : Word) : Inv (busWrite addr width v s) := by
  unfold Machine.busWrite
  split
  · exact h
  · split
    · exact h
    · split <;> [exact h; exact h.hostRegWrite _ v]
    · next hi => split <;> [exact h; exact h.imemWrite (lt_imemWords_of_hostTarget hi) _]
    · next ha => split <;> [exact h; exact h.memWriteWords (ws := [v]) (le_dmemBytes_of_hostTarget ha)]

theorem Inv.busAccess {s : State} (h : Inv s) (op : BusOp) : Inv (busAccess op s) := by
  cases op with
  | read addr width =>
    unfold Machine.busAccess
    dsimp only
    split
    · exact h.setHostRead _
    · exact h
  | write addr width v => exact h.busWrite addr width v

/-! ### Every step -/

/-- Settles O13, by whose turn it is. -/
theorem stepKeepsInvariant : Obligations.StepKeepsInvariant := by
  intro s t h hstep
  match hturns : s.turns with
  | [] => rw [step_nil hturns] at hstep; exact h.kernelStep hstep
  | .kernel :: rest => rw [step_kernel hturns] at hstep; exact (h.setTurns rest).kernelStep hstep
  | .bus op :: rest =>
    rw [step_bus hturns] at hstep
    injection hstep with hstep
    exact hstep ▸ (h.setTurns rest).busAccess op
  | .powerOn :: rest =>
    rw [step_powerOn hturns] at hstep
    injection hstep with hstep
    exact hstep ▸ (h.setTurns rest).powerOnReset

/-- Settles O5: the kernel's turn fetches the word at pc, decodes it and executes it. -/
theorem stepRunsDecodedInstruction : Obligations.StepRunsDecodedInstruction := by
  intro s i hrun hpc hdec
  have hfetch : fetch s = some (imemRead s s.pc.toNat) := if_pos hpc
  refine ⟨fun hturns => ?_, fun rest hturns => ?_⟩
  · rw [step_nil hturns, kernelStep_exec hrun hfetch hdec]
  · rw [step_kernel hturns]
    exact kernelStep_exec (s := { s with turns := rest }) hrun hfetch hdec

end Sys2Proof.Machine
end

section
/-! PROOFS. The primitives of 00_scope.md R13 and R14: division, residues and limbs, each tied once to the library's
function. -/

namespace Sys2Proof.Machine

/-! ### Division -/

/-- 00_scope.md R14: `tdiv` is the library's division truncated toward zero. -/
theorem tdiv_eq (a b : Int) : tdiv a b = a.tdiv b := by
  rw [tdiv, ← Int.sign_mul_natAbs (a.tdiv b), Int.sign_tdiv, Int.natAbs_tdiv]
  split
  · next h => rw [Nat.div_eq_of_lt h]; simp
  · rfl

theorem trem_eq (a b : Int) : trem a b = a.tmod b := by rw [trem, tdiv_eq, Int.tmod_def]

/-- 00_scope.md R14: `mathMod` of a positive modulus is the library's residue in [0, m). -/
theorem mathMod_eq_emod (a : Int) {m : Int} (hm : 0 < m) : mathMod a m = a % m := by
  have hnonneg := Int.emod_nonneg a hm.ne'
  have hlt := Int.emod_lt_of_pos a hm
  rw [mathMod, trem_eq, Int.tmod_eq_emod]
  split <;> split <;> omega

/-- A residue in [0, m) is determined by the congruence. -/
theorem eq_emod_of_dvd_sub {a m r : Int} (h0 : 0 ≤ r) (hr : r < m) (hd : m ∣ a - r) : r = a % m :=
  (Int.emod_eq_of_lt h0 hr).symm.trans (Int.modEq_iff_dvd.2 hd)

/-- Settles O32, through the library's `Int.tdiv`, `Int.tmod` and `%`. -/
theorem divisionPrimitives : Obligations.DivisionPrimitives := by
  refine ⟨fun a b hb => ⟨?identity, ?size, ?sign⟩, fun a m hm => ?residue⟩
  case identity => rw [trem, mul_comm, add_sub_cancel]
  case size =>
    rw [trem_eq, Int.natAbs_tmod]
    exact Nat.mod_lt _ (Int.natAbs_pos.2 hb)
  case sign =>
    rw [trem_eq, Int.sign_tmod]
    split
    · next hdvd => exact .inl (Int.tmod_eq_zero_of_dvd hdvd)
    · exact .inr rfl
  case residue =>
    rw [mathMod_eq_emod a hm]
    exact ⟨Int.emod_nonneg a hm.ne', Int.emod_lt_of_pos a hm, Int.dvd_self_sub_emod,
      fun r h0 hr hd => eq_emod_of_dvd_sub h0 hr hd⟩

/-! ### Limbs -/

theorem one_lt_limbBase : 1 < limbBase := by norm_num [limbBase]

/-- With fuel for every limb, the count is one more than the logarithm to the limb base. -/
theorem limbCount_eq_log {fuel n : Nat} (h : n ≤ fuel) : limbCount fuel n = Nat.log limbBase n + 1 := by
  induction fuel generalizing n with
  | zero => obtain rfl := Nat.le_zero.1 h; rw [Nat.log_zero_right]; rfl
  | succ fuel ih =>
    rw [limbCount]
    split
    · next hlt => rw [Nat.log_of_lt hlt]
    · next hge =>
      have hpos : 0 < n := lt_of_lt_of_le limbBase_pos (Nat.not_lt.1 hge)
      have hdiv : n / limbBase < n := Nat.div_lt_self hpos one_lt_limbBase
      rw [ih (by omega), Nat.log_of_one_lt_of_le one_lt_limbBase (Nat.not_lt.1 hge)]

/-- 00_scope.md R13: the number of limbs. -/
theorem len_eq_log (v : Int) : len v = Nat.log limbBase v.natAbs + 1 := limbCount_eq_log le_rfl

theorem natAbs_lt_limbBase_pow_len (v : Int) : v.natAbs < limbBase ^ len v := by
  rw [len_eq_log]; exact Nat.lt_pow_succ_log_self one_lt_limbBase _

/-- 00_scope.md R13: `len` is the least number of limbs, and at least one, that hold the magnitude. -/
theorem len_le_of_natAbs_lt {v : Int} {n : Nat} (hn : 1 ≤ n) (h : v.natAbs < limbBase ^ n) : len v ≤ n := by
  rw [len_eq_log]; exact Nat.log_lt_of_lt_pow' (by omega) h

/-- The top limb of the canonical form (00_scope.md R13). -/
theorem limb_top_ne_zero {v : Int} (hv : v ≠ 0) : limb v (len v - 1) ≠ 0 := by
  have hle : limbBase ^ (len v - 1) ≤ v.natAbs := by
    rw [len_eq_log, Nat.add_sub_cancel]; exact Nat.pow_log_le_self _ (Int.natAbs_ne_zero.2 hv)
  have hlt : v.natAbs < limbBase ^ (len v - 1) * limbBase := by
    rw [← pow_succ, len_eq_log, Nat.add_sub_cancel, ← len_eq_log]; exact natAbs_lt_limbBase_pow_len v
  have hpos : 0 < v.natAbs / limbBase ^ (len v - 1) := Nat.div_pos hle (Nat.pow_pos limbBase_pos)
  rw [limb, Nat.mod_eq_of_lt (Nat.div_lt_of_lt_mul hlt)]
  exact hpos.ne'

/-- 20_memory.md R90: the lowest `k` limbs of a number denote it modulo `limbBase ^ k`. -/
theorem ofLimbs_range (n k : Nat) :
    ofLimbs ((List.range k).map fun i => n / limbBase ^ i % limbBase) = n % limbBase ^ k := by
  induction k generalizing n with
  | zero => simp [Nat.mod_one]
  | succ k ih =>
    have hrest : (fun i => n / limbBase ^ (i + 1) % limbBase) = fun i => n / limbBase / limbBase ^ i % limbBase := by
      funext i; rw [pow_succ', Nat.div_div_eq_div_mul]
    rw [List.range_succ_eq_map, List.map_cons, List.map_map, ofLimbs_cons, pow_succ', Nat.mod_mul]
    show _ + limbBase * ofLimbs ((List.range k).map fun i => n / limbBase ^ (i + 1) % limbBase) = _
    rw [hrest, ih]
    simp

/-- 00_scope.md R13: the limbs of the canonical form denote the magnitude. -/
theorem ofLimbs_limbs (v : Int) : ofLimbs (limbs v) = v.natAbs :=
  (ofLimbs_range v.natAbs (len v)).trans (Nat.mod_eq_of_lt (natAbs_lt_limbBase_pow_len v))

theorem lt_limbBase_of_mem_limbs {v : Int} {l : Nat} (h : l ∈ limbs v) : l < limbBase := by
  obtain ⟨i, _, rfl⟩ := List.mem_map.1 h
  exact limb_lt v i

/-- Settles O34: `len` is a logarithm to the limb base, and the limbs are the digits to that base. -/
theorem limbsAreCanonical : Obligations.LimbsAreCanonical := by
  intro v
  rw [← limbBase_eq]
  exact ⟨⟨(len_eq_log v).symm ▸ Nat.succ_pos _, natAbs_lt_limbBase_pow_len v, fun _ => len_le_of_natAbs_lt⟩,
    length_limbs v, fun _ => lt_limbBase_of_mem_limbs, ofLimbs_limbs v, limb_top_ne_zero⟩

end Sys2Proof.Machine
end

section
/-! PROOFS. What instructions leave alone: what no effect touches, and ACC and C, which the shared shapes keep and only
the named instructions write. -/

namespace Sys2Proof.Machine

/-! ### What no effect touches -/

/-- 20_memory.md R81, R99, 60_exceptions.md R371: IMEM, START_PC, IE and the parameters are not an instruction's to
write. -/
theorem Effect.keeps_rest {s t : State} (h : Effect s t) :
    (∀ k, imemRead t k = imemRead s k) ∧ t.startPc = s.startPc ∧ t.ie = s.ie ∧ t.params = s.params := by
  cases h with
  | store a ws _ => rw [memWriteWords_keeps]; exact ⟨fun _ => rfl, rfl, rfl, rfl⟩
  | _ => exact ⟨fun _ => rfl, rfl, rfl, rfl⟩

/-! ### The shared shapes keep ACC and C -/

/-- A result is a next state with the ACC and the C of the state. -/
def AnswersKeepAcc (s : State) (r : Result) : Prop := ∃ t, r = .next t ∧ KeepsAcc s t

theorem KeepsAcc.answers {s t : State} (h : KeepsAcc s t) : AnswersKeepAcc s (.next t) := ⟨t, rfl, h⟩

theorem AnswersKeepAcc.keepsAcc {s t : State} {r : Result} (h : AnswersKeepAcc s r) (ht : r = .next t) :
    KeepsAcc s t := by
  obtain ⟨u, hu, hk⟩ := h
  rw [hu] at ht
  injection ht with ht
  exact ht ▸ hk

theorem raise_keepAcc (e : Error) (s : State) : AnswersKeepAcc s (raise e s) := KeepsAcc.answers ⟨rfl, rfl⟩

theorem writeXNext_keepAcc (d : XReg) (v : Word) (s : State) : AnswersKeepAcc s (writeXNext d v s) :=
  KeepsAcc.answers ⟨rfl, rfl⟩

theorem branch_keepAcc (taken : Bool) (off : BitVec 16) (s : State) : AnswersKeepAcc s (branch taken off s) :=
  KeepsAcc.answers ⟨rfl, rfl⟩

theorem writeBig_keepAcc (d : BReg) (v : Int) (s : State) : AnswersKeepAcc s (writeBig d v s) := by
  by_cases h : len v ≤ s.params.lmax
  · rw [writeBig_fits h]; exact KeepsAcc.answers ⟨rfl, rfl⟩
  · rw [writeBig_over (by omega)]; exact KeepsAcc.answers ⟨rfl, rfl⟩

theorem writeBigUnless_keepAcc (check : Option Error) (d : BReg) (v : Unit → Int) (s : State) :
    AnswersKeepAcc s (writeBigUnless check d v s) := by
  cases check with
  | none => exact writeBig_keepAcc d (v ()) s
  | some e => exact raise_keepAcc e s

theorem memWriteWords_keepsAcc (a : Nat) (ws : List Word) (s : State) : KeepsAcc s (retire (memWriteWords a ws s)) := by
  rw [memWriteWords_keeps]; exact ⟨rfl, rfl⟩

/-! ### The instructions with shapes of their own -/

theorem execCsrr_keepAcc (d : XReg) (n : Nat) (s : State) : AnswersKeepAcc s (execCsrr d n s) := by
  rw [execCsrr]
  split
  · exact writeXNext_keepAcc ..
  · exact raise_keepAcc ..

/-- 10_state.md R47, R48: CSRW writes C only as FLAGS, the CSR number 5, and never ACC. -/
theorem execCsrw_keeps {r : XReg} {n : Nat} {s t : State} (h : execCsrw r n s = .next t) :
    (n ≠ 5 → t.c = s.c) ∧ t.acc = s.acc := by
  rw [execCsrw] at h
  split at h
  · next u hu =>
    injection h with h
    subst h
    obtain ⟨hn, rfl⟩ | ⟨_, rfl⟩ := csrWrite_cases hu
    · exact ⟨fun hne => absurd hn hne, rfl⟩
    · exact ⟨fun _ => rfl, rfl⟩
  · obtain ⟨hacc, hc⟩ := (raise_keepAcc _ s).keepsAcc h
    exact ⟨fun _ => hc, hacc⟩

theorem execLd_keepAcc (d b : XReg) (off : BitVec 16) (s : State) : AnswersKeepAcc s (execLd d b off s) := by
  rw [execLd]
  split
  · exact raise_keepAcc ..
  · exact writeXNext_keepAcc ..

theorem execSd_keepAcc (a b : XReg) (off : BitVec 16) (s : State) : AnswersKeepAcc s (execSd a b off s) := by
  rw [execSd]
  split
  · exact raise_keepAcc ..
  · exact KeepsAcc.answers ⟨rfl, rfl⟩

theorem execBld_keepAcc (d : BReg) (b : XReg) (off : BitVec 16) (s : State) : AnswersKeepAcc s (execBld d b off s) := by
  rw [execBld]
  split
  · exact raise_keepAcc ..
  · exact writeBig_keepAcc ..

theorem execBst_keepAcc (a : BReg) (b : XReg) (off : BitVec 16) (s : State) : AnswersKeepAcc s (execBst a b off s) := by
  rw [execBst]
  split
  · exact raise_keepAcc ..
  · exact (memWriteWords_keepsAcc ..).answers

/-! ### Every instruction -/

/-- 10_state.md R34, R35: an instruction that is named neither for ACC nor for C keeps both. -/
theorem exec_keepAcc {i : Instr} (hacc : writesAcc i = false) (hc : writesC i = false) (s : State) :
    AnswersKeepAcc s (exec i s) := by
  cases i
  case mul128 | mac128 | accadd | accset | accnorm | accpop => cases hacc
  case csrw r n =>
    obtain ⟨t, ht, _⟩ := execCsrw_answers r n s
    obtain ⟨hkc, hkacc⟩ := execCsrw_keeps ht
    exact ⟨t, ht, hkacc, hkc (of_decide_eq_false hc)⟩
  case halt | nop | jal | jalr => exact KeepsAcc.answers ⟨rfl, rfl⟩
  case csrr => exact execCsrr_keepAcc ..
  case beq | bne | blt | bge | bltu | bgeu => exact branch_keepAcc ..
  case add | sub | and | or | xor | sll | srl | sltu | addi | ori | slli | srli | andi => exact writeXNext_keepAcc ..
  case mullo | mulhu | acclo | acchi | bcmp | blen | blimb | bsgn => exact writeXNext_keepAcc ..
  case badd | bsub | bneg | bmul | kmul | bmov | bfromx | bli => exact writeBig_keepAcc ..
  case bdiv | brem | mmod | madd | msub | mmul | msqr | mexp | mredc | mmont | mtom =>
    dsimp only [exec, execBdiv, execBrem, execMmod, execMadd, execMsub, execMmul, execMsqr, execMexp, execMredc,
      execMmont, execMtom]
    exact writeBigUnless_keepAcc ..
  case ld => exact execLd_keepAcc ..
  case sd => exact execSd_keepAcc ..
  case bld => exact execBld_keepAcc ..
  case bst => exact execBst_keepAcc ..

/-- 10_state.md R35: besides the instructions that keep both, ACCNORM and ACCPOP keep C. -/
theorem exec_c_eq {i : Instr} {s t : State} (hc : writesC i = false) (h : exec i s = .next t) : t.c = s.c := by
  by_cases hacc : writesAcc i = false
  · exact ((exec_keepAcc hacc hc s).keepsAcc h).2
  · cases i
    case accnorm | accpop => injection h with h; subst h; rfl
    case mul128 | mac128 | accadd | accset => cases hc
    all_goals exact absurd rfl hacc

/-- 10_state.md R34: besides the instructions that keep both, a CSRW of FLAGS keeps ACC. -/
theorem exec_acc_eq {i : Instr} {s t : State} (hacc : writesAcc i = false) (h : exec i s = .next t) :
    t.acc = s.acc := by
  by_cases hc : writesC i = false
  · exact ((exec_keepAcc hacc hc s).keepsAcc h).1
  · cases i
    case csrw => exact (execCsrw_keeps h).2
    case mul128 | mac128 | accadd | accset => cases hacc
    all_goals exact absurd rfl hc

/-- Settles O11: the writers of C and ACC instruction by instruction, everything else effect by effect. -/
theorem instructionsLeaveTheRestAlone : Obligations.InstructionsLeaveTheRestAlone := fun _ _ _ h =>
  ⟨fun hc => exec_c_eq hc h, fun hacc => exec_acc_eq hacc h, (exec_effect h).keeps_rest⟩

end Sys2Proof.Machine
end

section
/-! PROOFS. The two memories, 20_memory.md: a group of bytes as a sum, DMEM words read and written, what the host
reaches through the DMEM window, and a fetch outside IMEM. -/

namespace Sys2Proof.Machine

/-! ### Little-endian words (R84) -/

theorem loadLE_lt (f : Nat → Byte) (a n : Nat) : loadLE f a n < 256 ^ n := by
  induction n generalizing a with
  | zero => exact Nat.one_pos
  | succ n ih =>
    have hbyte : (f a).toNat < 256 := (f a).isLt
    have hrest := ih (a + 1)
    rw [loadLE, pow_succ']
    omega

theorem loadLE_eq_sum (f : Nat → Byte) (a n : Nat) :
    loadLE f a n = ∑ k ∈ Finset.range n, (f (a + k)).toNat * 256 ^ k := by
  induction n generalizing a with
  | zero => rfl
  | succ n ih =>
    rw [loadLE, ih, Finset.sum_range_succ', Finset.mul_sum, pow_zero, mul_one, add_zero, add_comm]
    congr 1
    refine Finset.sum_congr rfl fun k _ => ?_
    rw [add_right_comm, pow_succ', mul_left_comm, add_assoc]

/-- Eight bytes fit in a word, so nothing of the group is cut off. -/
theorem memRead_toNat (s : State) (a : Nat) : (memRead s a).toNat = loadLE (dmemByte s) a 8 := by
  rw [memRead, BitVec.toNat_ofNat]
  exact Nat.mod_eq_of_lt (loadLE_lt _ a 8)

/-- The bytes of a word that was written are the word's, from the lowest address on. -/
theorem dmemByte_memWrite_add (s : State) (a : Nat) (v : Word) {k : Nat} (hk : k < 8) :
    dmemByte (memWrite a v s) (a + k) = BitVec.ofNat 8 (v.toNat / 256 ^ k) := by
  rw [dmemByte_memWrite, if_pos (by omega), Nat.add_sub_cancel_left]

theorem dmemByte_memWrite_outside (s : State) {a b : Nat} (v : Word) (h : b < a ∨ a + 8 ≤ b) :
    dmemByte (memWrite a v s) b = dmemByte s b := by
  rw [dmemByte_memWrite, if_neg (by omega)]

theorem memRead_memWrite (s : State) (a : Nat) (v : Word) : memRead (memWrite a v s) a = v := by
  apply BitVec.eq_of_toNat_eq
  rw [memRead_toNat, loadLE_bytes _ a 8 v.toNat fun _ => dmemByte_memWrite_add s a v]
  exact Nat.mod_eq_of_lt v.isLt

/-- Settles O43, from the bytes a write leaves and the sum that a group of bytes is. -/
theorem memoryIsLittleEndian : Obligations.MemoryIsLittleEndian := by
  intro s a
  have hbase (k : Nat) : 2 ^ (8 * k) = 256 ^ k := pow_mul 2 8 k
  simp only [hbase]
  refine ⟨(memRead_toNat s a).trans (loadLE_eq_sum _ a 8), fun v => ⟨memRead_memWrite s a v, fun k hk => ?bytes,
    fun b => dmemByte_memWrite_outside s v⟩⟩
  case bytes => rw [dmemByte_memWrite_add s a v hk, BitVec.toNat_ofNat]

/-! ### The DMEM window (R102) -/

/-- R9: the block's own addresses are its 2 MiB from BASE on. -/
theorem blockOffset_base_add (p : Params) {off : Nat} (h : off < 0x200000) :
    blockOffset p (p.base + off) = some off := by
  rw [blockOffset, if_pos (by omega), Nat.add_sub_cancel_left]

theorem hostTarget_dmemWindow (p : Params) {a : Nat} (width : Nat) (h : a < 0x100000) :
    hostTarget p (0x100000 + a) width =
      if width = 64 ∧ a % 8 = 0 ∧ a + 8 ≤ p.dmemBytes then .dmemWord a else .nothing := by
  have haligned : (0x100000 + a) % 8 = a % 8 := by omega
  rw [hostTarget, if_neg (by omega), if_pos (by omega), haligned, Nat.add_sub_cancel_left]

section
variable {s : State} {addr off width a : Nat}

theorem busRead_nothing (hoff : blockOffset s.params addr = some off)
    (ht : hostTarget s.params off width = .nothing) : busRead s addr width = some 0 := by
  simp only [busRead, hoff, ht]

theorem busWrite_nothing (hoff : blockOffset s.params addr = some off)
    (ht : hostTarget s.params off width = .nothing) (v : Word) : busWrite addr width v s = s := by
  simp only [busWrite, hoff, ht]

theorem busRead_dmemWord (hoff : blockOffset s.params addr = some off)
    (ht : hostTarget s.params off width = .dmemWord a) :
    busRead s addr width = some (if s.run then 0 else memRead s a) := by
  simp only [busRead, hoff, ht]

theorem busWrite_dmemWord (hoff : blockOffset s.params addr = some off)
    (ht : hostTarget s.params off width = .dmemWord a) (v : Word) :
    busWrite addr width v s = if s.run then s else memWrite a v s := by
  simp only [busWrite, hoff, ht]

end

/-- Settles O56: the window's offset reaches the word at `a` or nothing, and the word only while the kernel is idle. -/
theorem dmemWindowAccess : Obligations.DmemWindowAccess := by
  intro s a width v addr ha haddr
  have hoff : blockOffset s.params addr = some (0x100000 + a) := by
    rw [haddr, Nat.add_assoc]
    exact blockOffset_base_add s.params (by omega)
  have htarget := hostTarget_dmemWindow s.params width ha
  by_cases hword : width = 64 ∧ a % 8 = 0 ∧ a + 8 ≤ s.params.dmemBytes
  · rw [if_pos hword] at htarget
    rw [busRead_dmemWord hoff htarget, busWrite_dmemWord hoff htarget]
    obtain ⟨hwidth, haligned, hin⟩ := hword
    cases hrun : s.run with
    | true => exact ⟨fun ⟨_, _, _, hidle⟩ => absurd hidle (by decide), fun _ => ⟨rfl, rfl⟩⟩
    | false => exact ⟨fun _ => ⟨rfl, rfl⟩, fun h => absurd ⟨hwidth, haligned, hin, rfl⟩ h⟩
  · rw [if_neg hword] at htarget
    rw [busRead_nothing hoff htarget, busWrite_nothing hoff htarget]
    exact ⟨fun ⟨hwidth, haligned, hin, _⟩ => absurd ⟨hwidth, haligned, hin⟩ hword, fun _ => ⟨rfl, rfl⟩⟩

/-! ### A fetch outside IMEM (R81) -/

theorem fetch_eq_none {s : State} (h : s.params.imemWords ≤ s.pc.toNat) : fetch s = none := if_neg (by omega)

theorem fetchError_eq (pc : Index) : fetchError pc = ⟨.fetchFault, BitVec.ofNat 64 pc.toNat⟩ := by
  rw [fetchError, zextIndex, BitVec.ofNat_toNat]

/-- A kernel step that is the error entry, whatever turns come after it, is the error stop (log 6). -/
theorem kernelTurnStops_of_kernelStep {s : State} {e : Error}
    (h : ∀ rest, kernelStep { s with turns := rest } = .next (errorEntry e { s with turns := rest })) :
    KernelTurnStops s e :=
  ⟨fun hturns => ⟨_, (step_nil hturns).trans (h s.turns), errorEntry_errorStop e s⟩,
    fun rest hturns => ⟨_, (step_kernel hturns).trans (h rest), errorEntry_errorStop e _⟩⟩

/-- Settles O6: nothing is fetched at such a pc, and the error stop is the whole step. -/
theorem fetchBeyondImemStops : Obligations.FetchBeyondImemStops := by
  intro s hrun hpc
  rw [← fetchError_eq]
  exact kernelTurnStops_of_kernelStep fun rest =>
    kernelStep_fetchFault (s := { s with turns := rest }) hrun (fetch_eq_none hpc)

end Sys2Proof.Machine
end

section
/-! PROOFS. Encoding, 30_encoding.md: `OpRow.canon`, the word that keeps only the fields of a row, ties the operand table
to `encode`, so that both round trips come from one fact about each row. -/

namespace Sys2Proof

/-! ### Words and their fields (R111) -/

section
variable {w : InstrWord} {op a b c d imm : Nat}

theorem wordR_eq_iff (ho : op < 256) (ha : a < 16) (hb : b < 16) (hc : c < 16) (hd : d < 16) :
    wordR op a b c d = w ↔
      bits w 31 24 = op ∧ slotA w = a ∧ slotB w = b ∧ slotC w = c ∧ slotD w = d ∧ bits w 7 0 = 0 := by
  rw [← BitVec.toNat_inj, toNat_wordR ho ha hb hc hd]
  simp only [slotA, slotB, slotC, slotD, bits]
  omega

theorem wordI_eq_iff (ho : op < 256) (ha : a < 16) (hb : b < 16) (hi : imm < 65536) :
    wordI op a b imm = w ↔ bits w 31 24 = op ∧ slotA w = a ∧ slotB w = b ∧ bits w 15 0 = imm := by
  rw [← BitVec.toNat_inj, toNat_wordI ho ha hb hi]
  simp only [slotA, slotB, bits]
  omega

theorem wordJ_eq_iff (ho : op < 256) (ha : a < 16) (hi : imm < 1048576) :
    wordJ op a imm = w ↔ bits w 31 24 = op ∧ slotA w = a ∧ bits w 19 0 = imm := by
  rw [← BitVec.toNat_inj, toNat_wordJ ho ha hi]
  simp only [slotA, bits]
  omega

theorem bits_lt (w : InstrWord) (hi lo : Nat) : bits w hi lo < 2 ^ (hi - lo + 1) := Nat.mod_lt _ (by positivity)

theorem slotA_lt (w : InstrWord) : slotA w < 16 := bits_lt w 23 20
theorem slotB_lt (w : InstrWord) : slotB w < 16 := bits_lt w 19 16
theorem slotC_lt (w : InstrWord) : slotC w < 16 := bits_lt w 15 12
theorem slotD_lt (w : InstrWord) : slotD w < 16 := bits_lt w 11 8

end

/-! ### Operands read from a word -/

section
variable {op a b c d imm : Nat}

@[simp] theorem xA_wordR (ho : op < 256) (r : XReg) (hb : b < 16) (hc : c < 16) (hd : d < 16) :
    xA (wordR op r b c d) = r := by simp [xA, xSlot, slotA_wordR ho r.isLt hb hc hd]

@[simp] theorem xB_wordR (ho : op < 256) (ha : a < 16) (r : XReg) (hc : c < 16) (hd : d < 16) :
    xB (wordR op a r c d) = r := by simp [xB, xSlot, slotB_wordR ho ha r.isLt hc hd]

@[simp] theorem xC_wordR (ho : op < 256) (ha : a < 16) (hb : b < 16) (r : XReg) (hd : d < 16) :
    xC (wordR op a b r d) = r := by simp [xC, xSlot, slotC_wordR ho ha hb r.isLt hd]

@[simp] theorem bA_wordR (ho : op < 256) (r : BReg) (hb : b < 16) (hc : c < 16) (hd : d < 16) :
    bA (wordR op r b c d) = r := by simp [bA, bSlot, slotA_wordR ho (r.isLt.trans (by decide)) hb hc hd]

@[simp] theorem bB_wordR (ho : op < 256) (ha : a < 16) (r : BReg) (hc : c < 16) (hd : d < 16) :
    bB (wordR op a r c d) = r := by simp [bB, bSlot, slotB_wordR ho ha (r.isLt.trans (by decide)) hc hd]

@[simp] theorem bC_wordR (ho : op < 256) (ha : a < 16) (hb : b < 16) (r : BReg) (hd : d < 16) :
    bC (wordR op a b r d) = r := by simp [bC, bSlot, slotC_wordR ho ha hb (r.isLt.trans (by decide)) hd]

@[simp] theorem bD_wordR (ho : op < 256) (ha : a < 16) (hb : b < 16) (hc : c < 16) (r : BReg) :
    bD (wordR op a b c r) = r := by simp [bD, bSlot, slotD_wordR ho ha hb hc (r.isLt.trans (by decide))]

@[simp] theorem xA_wordI (ho : op < 256) (r : XReg) (hb : b < 16) (hi : imm < 65536) :
    xA (wordI op r b imm) = r := by simp [xA, xSlot, slotA_wordI ho r.isLt hb hi]

@[simp] theorem xB_wordI (ho : op < 256) (ha : a < 16) (r : XReg) (hi : imm < 65536) :
    xB (wordI op a r imm) = r := by simp [xB, xSlot, slotB_wordI ho ha r.isLt hi]

@[simp] theorem bA_wordI (ho : op < 256) (r : BReg) (hb : b < 16) (hi : imm < 65536) :
    bA (wordI op r b imm) = r := by simp [bA, bSlot, slotA_wordI ho (r.isLt.trans (by decide)) hb hi]

@[simp] theorem imm16_wordI (ho : op < 256) (ha : a < 16) (hb : b < 16) (v : BitVec 16) :
    imm16 (wordI op a b v.toNat) = v := by simp [imm16, bits_imm_wordI ho ha hb v.isLt]

@[simp] theorem shField_wordI (ho : op < 256) (ha : a < 16) (hb : b < 16) (hi : imm < 64) :
    shField (wordI op a b imm) = imm := by
  rw [shField, bits, toNat_wordI ho ha hb (by omega)]; omega

@[simp] theorem csrField_wordI (ho : op < 256) (ha : a < 16) (hb : b < 16) (hi : imm < 4096) :
    csrField (wordI op a b imm) = imm := by
  rw [csrField, bits, toNat_wordI ho ha hb (by omega)]; omega

@[simp] theorem xA_wordJ (ho : op < 256) (r : XReg) (hi : imm < 1048576) : xA (wordJ op r imm) = r := by
  simp [xA, xSlot, slotA_wordJ ho r.isLt hi]

@[simp] theorem imm20_wordJ (ho : op < 256) (ha : a < 16) (v : BitVec 20) : imm20 (wordJ op a v.toNat) = v := by
  simp [imm20, bits_imm_wordJ ho ha v.isLt]

end

/-! ### Legal words of a row (R120) -/

/-- R116, R118: a slot of this kind may hold this value. -/
def Slot.Admits (k : Slot) (v : Nat) : Prop := (k = .zero → v = 0) ∧ (k = .b → v < 8)

/-- R120: a word passes the row's checks. -/
def OpRow.Passes (r : OpRow) (w : InstrWord) : Prop :=
  r.a.Admits (slotA w) ∧ r.b.Admits (slotB w) ∧ r.c.Admits (slotC w) ∧ r.d.Admits (slotD w) ∧
  (r.fmt = .r → bits w 7 0 = 0) ∧ (r.fmt = .n → bits w 23 0 = 0) ∧
  (r.imm = .sh → bits w 15 6 = 0) ∧ (r.imm = .csr → bits w 15 12 = 0)

/-- R120: a word has the row's opcode and passes its checks. -/
def OpRow.IsWord (r : OpRow) (w : InstrWord) : Prop := bits w 31 24 = r.code ∧ r.Passes w

theorem Slot.admits_iff {k : Slot} {v : Nat} : k.Admits v ↔ k.notZero v = false ∧ k.notBig v = false := by
  simp [Slot.Admits, Slot.notZero, Slot.notBig]

@[simp] theorem Slot.admits_imm (v : Nat) : Slot.imm.Admits v := by simp [Slot.Admits]

@[simp] theorem Slot.admits_zero_iff (v : Nat) : Slot.zero.Admits v ↔ v = 0 := by simp [Slot.Admits]

/-- The checks of R120, one after another, all pass. -/
theorem OpRow.defect_eq_none_iff {r : OpRow} {w : InstrWord} : r.defect w = none ↔ r.Passes w := by
  simp only [OpRow.Passes, Slot.admits_iff, OpRow.defect, ite_eq_iff, reduceCtorEq, Bool.or_eq_true, Bool.and_eq_true,
    decide_eq_true_eq, bne_iff_ne]
  grind

/-! ### The rows of the table -/

theorem nodup_codes : (opRows.map (·.code)).Nodup := by decide +kernel

theorem eq_of_code_eq {r r' : OpRow} (hr : r ∈ opRows) (hr' : r' ∈ opRows) (h : r.code = r'.code) : r = r' :=
  List.inj_on_of_nodup_map nodup_codes hr hr' h

theorem nodup_mnemonics : (opRows.map (·.mnemonic)).Nodup := by decide +kernel

theorem eq_of_mnemonic_eq {r r' : OpRow} (hr : r ∈ opRows) (hr' : r' ∈ opRows) (h : r.mnemonic = r'.mnemonic) :
    r = r' := List.inj_on_of_nodup_map nodup_mnemonics hr hr' h

theorem findRow_eq_some_iff {n : Nat} {r : OpRow} : findRow n = some r ↔ r ∈ opRows ∧ r.code = n := by
  constructor
  · intro h
    exact ⟨List.mem_of_find?_eq_some h, by simpa using List.find?_some h⟩
  · rintro ⟨hr, rfl⟩
    cases h : findRow r.code with
    | none => simpa using List.find?_eq_none.1 h r hr
    | some r' =>
      have hcode : r'.code = r.code := by simpa using List.find?_some h
      rw [eq_of_code_eq (List.mem_of_find?_eq_some h) hr hcode]

/-- R120, once and for all: a word decodes to what a row builds, exactly when it is a legal word of that row. -/
theorem decode_eq_instr_iff {w : InstrWord} {i : Instr} :
    decode w = .instr i ↔ ∃ r ∈ opRows, r.IsWord w ∧ r.build w = i := by
  constructor
  · intro h
    unfold decode at h
    split at h
    · cases h
    · next r hr =>
      split at h
      · cases h
      · next hdef =>
        obtain ⟨hmem, hcode⟩ := findRow_eq_some_iff.1 hr
        injection h with h
        exact ⟨r, hmem, ⟨hcode.symm, OpRow.defect_eq_none_iff.1 hdef⟩, h⟩
  · rintro ⟨r, hmem, ⟨hcode, hpasses⟩, rfl⟩
    simp only [decode, findRow_eq_some_iff.2 ⟨hmem, hcode.symm⟩, OpRow.defect_eq_none_iff.2 hpasses]

theorem mnemonic_build {r : OpRow} (hr : r ∈ opRows) (w : InstrWord) : (r.build w).mnemonic = r.mnemonic :=
  have hmap : opRows.map (fun r => (r.build w).mnemonic) = opRows.map fun r => r.mnemonic := rfl
  List.map_inj_left.1 hmap r hr

/-- R112 to R115: the opcode is a byte, and the slots and immediates are those of the format. -/
def OpRow.wellShaped (r : OpRow) : Bool :=
  r.code < 256 &&
  match r.fmt with
  | .n => r.a = .zero && r.b = .zero && r.c = .zero && r.d = .zero && r.imm = .none
  | .r => r.imm = .none
  | .i => r.c = .imm && r.d = .imm
  | .j => r.b = .imm && r.c = .imm && r.d = .imm && r.imm = .off20

theorem wellShaped_of_mem {r : OpRow} (hr : r ∈ opRows) : r.wellShaped = true :=
  List.all_eq_true.1 (show opRows.all OpRow.wellShaped = true by decide) r hr

theorem code_lt {r : OpRow} (hr : r ∈ opRows) : r.code < 256 := by
  have h := wellShaped_of_mem hr
  simp only [OpRow.wellShaped, Bool.and_eq_true, decide_eq_true_eq] at h
  exact h.1

/-- R112 to R115: what a row's format says of its slots and its immediate. -/
theorem shape_of_mem {r : OpRow} (hr : r ∈ opRows) :
    (r.fmt = .n → r.a = .zero ∧ r.b = .zero ∧ r.c = .zero ∧ r.d = .zero ∧ r.imm = .none) ∧
    (r.fmt = .r → r.imm = .none) ∧ (r.fmt = .i → r.c = .imm ∧ r.d = .imm) ∧
    (r.fmt = .j → r.b = .imm ∧ r.c = .imm ∧ r.d = .imm ∧ r.imm = .off20) := by
  have h := wellShaped_of_mem hr
  rw [OpRow.wellShaped] at h
  cases hfmt : r.fmt <;> simpa [hfmt, and_assoc, code_lt hr] using h

/-! ### The word a row keeps -/

/-- What a slot of this kind keeps of a value. -/
def Slot.keep : Slot → Nat → Nat
  | .zero, _ => 0
  | .b, v => v % 8
  | .x, v | .imm, v => v % 16

/-- The low bits that an immediate of this kind keeps of a format I word. -/
def ImmKind.keep (k : ImmKind) (w : InstrWord) : Nat :=
  match k with
  | .sh => shField w
  | .csr => csrField w
  | .none | .s16 | .z16 | .off16 | .off20 => (imm16 w).toNat

/-- The word that keeps the row's fields of a word, with the row's opcode and 0 everywhere else. -/
def OpRow.canon (r : OpRow) (w : InstrWord) : InstrWord :=
  match r.fmt with
  | .n | .r => wordR r.code (r.a.keep (slotA w)) (r.b.keep (slotB w)) (r.c.keep (slotC w)) (r.d.keep (slotD w))
  | .i => wordI r.code (r.a.keep (slotA w)) (r.b.keep (slotB w)) (r.imm.keep w)
  | .j => wordJ r.code (r.a.keep (slotA w)) (imm20 w).toNat

/-- Encoding what a row builds of a word keeps exactly the row's fields. -/
theorem encode_build {r : OpRow} (hr : r ∈ opRows) (w : InstrWord) : encode (r.build w) = r.canon w :=
  have hmap : opRows.map (fun r => encode (r.build w)) = opRows.map fun r => r.canon w := rfl
  List.map_inj_left.1 hmap r hr

theorem Slot.keep_lt (k : Slot) (v : Nat) : k.keep v < 16 := by
  cases k <;> simp only [Slot.keep] <;> omega

theorem Slot.eq_keep_iff {k : Slot} {v : Nat} (hv : v < 16) : v = k.keep v ↔ k.Admits v := by
  cases k
  case zero => simp [Slot.keep]
  case x | imm => simp [Slot.keep, Slot.Admits, Nat.mod_eq_of_lt hv]
  case b => simp only [Slot.keep, Slot.Admits, reduceCtorEq, false_implies, forall_const, true_and]; omega

theorem imm16_toNat (w : InstrWord) : (imm16 w).toNat = bits w 15 0 := by
  rw [imm16, BitVec.toNat_ofNat]; exact Nat.mod_eq_of_lt (bits_lt w 15 0)

theorem imm20_toNat (w : InstrWord) : (imm20 w).toNat = bits w 19 0 := by
  rw [imm20, BitVec.toNat_ofNat]; exact Nat.mod_eq_of_lt (bits_lt w 19 0)

theorem ImmKind.keep_lt (k : ImmKind) (w : InstrWord) : k.keep w < 65536 := by
  cases k
  case sh => exact (bits_lt w 5 0).trans (by decide)
  case csr => exact (bits_lt w 11 0).trans (by decide)
  case none | s16 | z16 | off16 | off20 => exact (imm16 w).isLt

theorem ImmKind.eq_keep_iff {k : ImmKind} {w : InstrWord} :
    bits w 15 0 = k.keep w ↔ (k = .sh → bits w 15 6 = 0) ∧ (k = .csr → bits w 15 12 = 0) := by
  cases k
  case sh =>
    simp only [ImmKind.keep, shField, bits, forall_const, reduceCtorEq, false_implies, and_true]
    omega
  case csr =>
    simp only [ImmKind.keep, csrField, bits, forall_const, reduceCtorEq, false_implies, true_and]
    omega
  case none | s16 | z16 | off16 | off20 => simp [ImmKind.keep, imm16_toNat]

theorem bits_operands_eq_zero_iff {w : InstrWord} :
    bits w 23 0 = 0 ↔ slotA w = 0 ∧ slotB w = 0 ∧ slotC w = 0 ∧ slotD w = 0 ∧ bits w 7 0 = 0 := by
  simp only [slotA, slotB, slotC, slotD, bits]
  omega

/-- A word is its own kept fields exactly when it is a legal word of the row: R120 lets no other bit through. -/
theorem canon_eq_self_iff {r : OpRow} (hr : r ∈ opRows) {w : InstrWord} : r.canon w = w ↔ r.IsWord w := by
  have hop := code_lt hr
  obtain ⟨hshapeN, hshapeR, hshapeI, hshapeJ⟩ := shape_of_mem hr
  rw [OpRow.canon, OpRow.IsWord, OpRow.Passes]
  cases hfmt : r.fmt with
  | n =>
    obtain ⟨ha, hb, hc, hd, himm⟩ := hshapeN hfmt
    simp only [wordR_eq_iff hop (Slot.keep_lt _ _) (Slot.keep_lt _ _) (Slot.keep_lt _ _) (Slot.keep_lt _ _),
      Slot.eq_keep_iff, slotA_lt, slotB_lt, slotC_lt, slotD_lt, ha, hb, hc, hd, himm, Slot.admits_zero_iff,
      bits_operands_eq_zero_iff]
    tauto
  | r =>
    simp only [wordR_eq_iff hop (Slot.keep_lt _ _) (Slot.keep_lt _ _) (Slot.keep_lt _ _) (Slot.keep_lt _ _),
      Slot.eq_keep_iff, slotA_lt, slotB_lt, slotC_lt, slotD_lt, hshapeR hfmt]
    simp
  | i =>
    obtain ⟨hc, hd⟩ := hshapeI hfmt
    simp only [wordI_eq_iff hop (Slot.keep_lt _ _) (Slot.keep_lt _ _) (ImmKind.keep_lt _ _),
      Slot.eq_keep_iff, slotA_lt, slotB_lt, ImmKind.eq_keep_iff, hc, hd]
    simp
  | j =>
    obtain ⟨hb, hc, hd, himm⟩ := hshapeJ hfmt
    simp only [wordJ_eq_iff hop (Slot.keep_lt _ _) (bits_lt w 19 0), Slot.eq_keep_iff, slotA_lt, imm20_toNat,
      hb, hc, hd, himm]
    simp

/-- R117: the field that the immediate's kind reads is in its range. -/
def ImmKind.fieldOk (k : ImmKind) (w : InstrWord) : Bool :=
  match k with
  | .sh => shiftOk (shField w)
  | .csr => csrOk (csrField w)
  | .none | .s16 | .z16 | .off16 | .off20 => true

theorem ImmKind.fieldOk_eq_true (k : ImmKind) (w : InstrWord) : k.fieldOk w = true := by
  cases k
  case sh => exact decide_eq_true (bits_lt w 5 0)
  case csr => exact decide_eq_true (bits_lt w 11 0)
  case none | s16 | z16 | off16 | off20 => rfl

/-- What a row builds is well-formed: a shift field has 6 bits and a CSR field 12 (R117). -/
theorem wellFormed_build {r : OpRow} (hr : r ∈ opRows) (w : InstrWord) : (r.build w).wellFormed = true := by
  have hmap : opRows.map (fun r => (r.build w).wellFormed) = opRows.map fun r => r.imm.fieldOk w := rfl
  rw [List.map_inj_left.1 hmap r hr]
  exact ImmKind.fieldOk_eq_true _ w

/-! ### The round trips -/

/-- Settles O2: the word of what a row builds is the word the row keeps, which for a legal word is the word itself. -/
theorem encodeDecodeRoundTrip : Obligations.EncodeDecodeRoundTrip := by
  intro w i hdec
  obtain ⟨r, hr, hword, rfl⟩ := decode_eq_instr_iff.1 hdec
  exact ⟨wellFormed_build hr w, (encode_build hr w).trans ((canon_eq_self_iff hr).2 hword)⟩

/-- Some row builds the instruction back from the instruction's word. -/
def ReadsBack (i : Instr) : Prop := ∃ r ∈ opRows, r.build (encode i) = i

/-- An instruction that a row reads back from its word has a legal word: the row keeps all of it. -/
theorem ReadsBack.decode_encode {i : Instr} (h : ReadsBack i) : decode (encode i) = .instr i := by
  obtain ⟨r, hr, hbuild⟩ := h
  have hcanon : r.canon (encode i) = encode i := by rw [← encode_build hr, hbuild]
  exact decode_eq_instr_iff.2 ⟨r, hr, (canon_eq_self_iff hr).1 hcanon, hbuild⟩

section
variable {i : Instr} {op a b c d imm : Nat} {r : OpRow}

theorem ReadsBack.of_wordR (hword : encode i = wordR op a b c d) (hrow : findRow op = some r)
    (hbuild : r.build (wordR op a b c d) = i) : ReadsBack i :=
  ⟨r, (findRow_eq_some_iff.1 hrow).1, hword ▸ hbuild⟩

theorem ReadsBack.of_wordI (hword : encode i = wordI op a b imm) (hrow : findRow op = some r)
    (hbuild : r.build (wordI op a b imm) = i) : ReadsBack i :=
  ⟨r, (findRow_eq_some_iff.1 hrow).1, hword ▸ hbuild⟩

theorem ReadsBack.of_wordJ (hword : encode i = wordJ op a imm) (hrow : findRow op = some r)
    (hbuild : r.build (wordJ op a imm) = i) : ReadsBack i :=
  ⟨r, (findRow_eq_some_iff.1 hrow).1, hword ▸ hbuild⟩

end

/-- Every well-formed instruction is read back, operand by operand, by the row of its opcode. -/
theorem readsBack (i : Instr) (h : i.wellFormed = true) : ReadsBack i := by
  cases i
  case halt | nop => exact .of_wordR rfl rfl rfl
  case add | sub | and | or | xor | sll | srl | sltu | mullo | mulhu | mul128 | mac128 | accadd | accset | acclo | acchi
      | accnorm | accpop | badd | bsub | bneg | bmul | kmul | bdiv | brem | bcmp | bmov | bfromx | blen | blimb | bsgn
      | mmod | madd | msub | mmul | msqr | mexp | mredc | mmont | mtom =>
    exact .of_wordR rfl rfl (by simp (disch := omega))
  case jalr | beq | bne | blt | bge | bltu | bgeu | addi | ori | andi | bli | ld | sd | bld | bst =>
    exact .of_wordI rfl rfl (by simp (disch := omega))
  case csrr r n | csrw r n =>
    have hn : n < 4096 := by simpa [Instr.wellFormed, csrOk] using h
    exact .of_wordI rfl rfl (by simp (disch := omega))
  case slli d a n | srli d a n =>
    have hn : n < 64 := by simpa [Instr.wellFormed, shiftOk] using h
    exact .of_wordI rfl rfl (by simp (disch := omega))
  case jal => exact .of_wordJ rfl rfl (by simp (disch := omega))

/-- Settles O1: the row of the opcode reads every operand back, so it keeps the whole word. -/
theorem decodeEncodeRoundTrip : Obligations.DecodeEncodeRoundTrip := fun i h => (readsBack i h).decode_encode

/-- Settles O4: each word is that of its instruction, so the round trip reads it back. -/
theorem sampleWordsDecode : Obligations.SampleWordsDecode :=
  ⟨decodeEncodeRoundTrip (.mullo 3 1 2) rfl, decodeEncodeRoundTrip (.mac128 7 2) rfl,
    decodeEncodeRoundTrip (.accnorm 8) rfl, decodeEncodeRoundTrip (.kmul 3 1 2) rfl,
    decodeEncodeRoundTrip (.mexp 4 1 2 3) rfl, decodeEncodeRoundTrip (.msqr 5 5 3) rfl,
    decodeEncodeRoundTrip (.mredc 7 6 3) rfl, decodeEncodeRoundTrip (.bld 1 0 16) rfl,
    decodeEncodeRoundTrip (.ld 2 1 8) rfl, decodeEncodeRoundTrip (.bne 6 3 (-7)) rfl,
    decodeEncodeRoundTrip (.jal 1 3) rfl, decodeEncodeRoundTrip (.jal 0 (-1)) rfl,
    decodeEncodeRoundTrip (.csrw 1 6) rfl, decodeEncodeRoundTrip (.bli 3 (-1)) rfl,
    decodeEncodeRoundTrip .halt rfl⟩

/-! ### Match and mask (R120) -/

/-- The word with 1 in bits hi down to lo. -/
def fieldMask (hi lo : Nat) : InstrWord := BitVec.ofNat 32 ((2 ^ (hi - lo + 1) - 1) * 2 ^ lo)

theorem toNat_fieldMask {hi lo : Nat} (hlo : lo ≤ hi) (hhi : hi < 32) :
    (fieldMask hi lo).toNat = (2 ^ (hi - lo + 1) - 1) * 2 ^ lo := by
  have hle : 2 ^ (hi - lo + 1) * 2 ^ lo ≤ 2 ^ 32 := by
    rw [← pow_add]; exact Nat.pow_le_pow_right (by decide) (by omega)
  have hpos : 0 < 2 ^ lo := by positivity
  rw [fieldMask, BitVec.toNat_ofNat, Nat.mod_eq_of_lt (by rw [Nat.sub_mul]; omega)]

theorem toNat_and_fieldMask (w : InstrWord) {hi lo : Nat} (hlo : lo ≤ hi) (hhi : hi < 32) :
    (w &&& fieldMask hi lo).toNat = bits w hi lo * 2 ^ lo := by
  rw [BitVec.toNat_and, toNat_fieldMask hlo hhi, bits]
  refine Nat.eq_of_testBit_eq fun k => ?_
  simp only [Nat.testBit_and, Nat.testBit_mul_two_pow, Nat.testBit_two_pow_sub_one, Nat.testBit_mod_two_pow,
    Nat.testBit_div_two_pow]
  by_cases hk : lo ≤ k
  · simp [hk, Bool.and_comm]
  · simp [hk]

theorem and_fieldMask_eq_zero_iff {w : InstrWord} {hi lo : Nat} (hlo : lo ≤ hi) (hhi : hi < 32) :
    w &&& fieldMask hi lo = 0#32 ↔ bits w hi lo = 0 := by
  rw [← BitVec.toNat_inj, toNat_and_fieldMask w hlo hhi]
  simp

/-- R116, R118: the bits of a slot at `lo` that must be 0. -/
def Slot.mask (k : Slot) (lo : Nat) : InstrWord :=
  match k with
  | .zero => fieldMask (lo + 3) lo
  | .b => fieldMask (lo + 3) (lo + 3)
  | .x | .imm => 0#32

theorem bits_top_of_slot (w : InstrWord) (lo : Nat) : bits w (lo + 3) (lo + 3) = bits w (lo + 3) lo / 8 := by
  have hdiv : w.toNat / 2 ^ (lo + 3) = w.toNat / 2 ^ lo / 8 := by rw [pow_add, Nat.div_div_eq_div_mul]; rfl
  simp only [bits, hdiv, Nat.sub_self, Nat.add_sub_cancel_left]
  omega

theorem Slot.and_mask_eq_zero_iff {k : Slot} {w : InstrWord} {lo : Nat} (hlo : lo + 3 < 32) :
    w &&& k.mask lo = 0#32 ↔ k.Admits (bits w (lo + 3) lo) := by
  cases k
  case zero => rw [Slot.admits_zero_iff, Slot.mask, and_fieldMask_eq_zero_iff (by omega) hlo]
  case b =>
    rw [Slot.mask, and_fieldMask_eq_zero_iff le_rfl hlo, bits_top_of_slot]
    simp [Slot.Admits]
  case x | imm => simp [Slot.mask, Slot.Admits]

/-- The bits that must be 0 in a word of the row. -/
def OpRow.zeroMask (r : OpRow) : InstrWord :=
  r.a.mask 20 ||| r.b.mask 16 ||| r.c.mask 12 ||| r.d.mask 8 |||
  (if r.fmt = .r then fieldMask 7 0 else 0#32) ||| (if r.fmt = .n then fieldMask 23 0 else 0#32) |||
  (if r.imm = .sh then fieldMask 15 6 else 0#32) ||| (if r.imm = .csr then fieldMask 15 12 else 0#32)

/-- The row's match and mask, from its operands. -/
def OpRow.maskRow (r : OpRow) : MaskRow := ⟨r.mnemonic, wordR r.code 0 0 0 0, fieldMask 31 24 ||| r.zeroMask⟩

/-- The match and mask of the opcode table are those of the operand table. -/
theorem maskTable_eq : maskTable = opRows.map OpRow.maskRow := by decide +kernel

theorem zeroMask_lt {r : OpRow} (hr : r ∈ opRows) : r.zeroMask.toNat < 2 ^ 24 := by
  have hall : opRows.all (fun r => r.zeroMask.toNat < 2 ^ 24) = true := by decide +kernel
  simpa using List.all_eq_true.1 hall r hr

theorem and_ite_eq_zero_iff {w m : InstrWord} {p : Prop} [Decidable p] :
    w &&& (if p then m else 0#32) = 0#32 ↔ (p → w &&& m = 0#32) := by
  split <;> simp [*]

theorem and_zeroMask_eq_zero_iff {r : OpRow} {w : InstrWord} : w &&& r.zeroMask = 0#32 ↔ r.Passes w := by
  simp (disch := decide) only [OpRow.zeroMask, BitVec.and_or_distrib_left, BitVec.or_eq_zero_iff,
    Slot.and_mask_eq_zero_iff, and_ite_eq_zero_iff, and_fieldMask_eq_zero_iff, and_assoc]
  rfl

theorem accepts_maskRow_iff {r : OpRow} (hr : r ∈ opRows) {w : InstrWord} :
    r.maskRow.accepts w = true ↔ r.IsWord w := by
  have hcode : (wordR r.code 0 0 0 0).toNat = 2 ^ 24 * r.code := by
    rw [toNat_wordR (code_lt hr) (by decide) (by decide) (by decide) (by decide)]; omega
  have hhead : (w &&& fieldMask 31 24).toNat = 2 ^ 24 * bits w 31 24 := by
    rw [toNat_and_fieldMask w (by decide) (by decide), mul_comm]
  have hrest : (w &&& r.zeroMask).toNat < 2 ^ 24 := by
    rw [BitVec.toNat_and]
    exact Nat.lt_of_le_of_lt Nat.and_le_right (zeroMask_lt hr)
  have hword : (w &&& r.maskRow.mask).toNat = 2 ^ 24 * bits w 31 24 + (w &&& r.zeroMask).toNat := by
    rw [OpRow.maskRow, BitVec.and_or_distrib_left, BitVec.toNat_or, hhead, Nat.two_pow_add_eq_or_of_lt hrest]
  have hzero : (w &&& r.zeroMask).toNat = 0 ↔ r.Passes w := by
    rw [← and_zeroMask_eq_zero_iff, ← BitVec.toNat_inj, BitVec.toNat_zero]
  rw [OpRow.IsWord, ← hzero, MaskRow.accepts, beq_iff_eq, ← BitVec.toNat_inj, hword, OpRow.maskRow, hcode]
  omega

/-- A row of the opcode table is a row of the operand table, and accepts exactly its legal words. -/
theorem exists_opRow_of_mem_maskTable {m : MaskRow} (hm : m ∈ maskTable) :
    ∃ r ∈ opRows, m = r.maskRow ∧ ∀ w, m.accepts w = true ↔ r.IsWord w := by
  rw [maskTable_eq] at hm
  obtain ⟨r, hr, rfl⟩ := List.mem_map.1 hm
  exact ⟨r, hr, rfl, fun w => accepts_maskRow_iff hr⟩

/-- A word that decodes is accepted by the row of its instruction's mnemonic. -/
theorem exists_maskRow_of_decode {w : InstrWord} {i : Instr} (hdec : decode w = .instr i) :
    ∃ m ∈ maskTable, m.accepts w = true ∧ m.mnemonic = i.mnemonic := by
  obtain ⟨r, hr, hword, rfl⟩ := decode_eq_instr_iff.1 hdec
  exact ⟨r.maskRow, maskTable_eq ▸ List.mem_map_of_mem hr, (accepts_maskRow_iff hr).2 hword,
    (mnemonic_build hr w).symm⟩

theorem eq_of_isWord {r r' : OpRow} {w : InstrWord} (hr : r ∈ opRows) (hr' : r' ∈ opRows) (h : r.IsWord w)
    (h' : r'.IsWord w) : r = r' := eq_of_code_eq hr hr' (h.1.symm.trans h'.1)

/-- Settles O3: the two tables have the same rows, and a row of either one takes exactly the legal words of the row. -/
theorem decodeMatchesOpcodeTable : Obligations.DecodeMatchesOpcodeTable := by
  refine ⟨fun w m hm => ?_, fun w i => exists_maskRow_of_decode, fun w m m' hm hm' h h' => ?_⟩
  · obtain ⟨r, hr, rfl, haccepts⟩ := exists_opRow_of_mem_maskTable hm
    rw [haccepts]
    constructor
    · exact fun hword => ⟨r.build w, decode_eq_instr_iff.2 ⟨r, hr, hword, rfl⟩, mnemonic_build hr w⟩
    · rintro ⟨i, hdec, hmnemonic⟩
      obtain ⟨r', hr', hword, rfl⟩ := decode_eq_instr_iff.1 hdec
      have hsame : r'.mnemonic = r.mnemonic := (mnemonic_build hr' w).symm.trans hmnemonic
      exact eq_of_mnemonic_eq hr' hr hsame ▸ hword
  · obtain ⟨r, hr, rfl, haccepts⟩ := exists_opRow_of_mem_maskTable hm
    obtain ⟨r', hr', rfl, haccepts'⟩ := exists_opRow_of_mem_maskTable hm'
    rw [eq_of_isWord hr hr' ((haccepts w).1 h) ((haccepts' w).1 h')]

/-! ### Illegal words (R130, R131) -/

/-- R130: no opcode of the table is in an unassigned range. -/
theorem not_unassigned_of_mem_codes : ∀ n ∈ opRows.map (·.code),
    ¬ (n = 0x00 ∨ (0x05 ≤ n ∧ n ≤ 0x07) ∨ (0x1D ≤ n ∧ n ≤ 0x1F) ∨ (0x2A ≤ n ∧ n ≤ 0x2F) ∨
      (0x3E ≤ n ∧ n ≤ 0x3F) ∨ (0x46 ≤ n ∧ n ≤ 0x47) ∨ (0x4B ≤ n ∧ n ≤ 0x4F) ∨ 0x54 ≤ n) := by decide

theorem bits_opcode_eq (w : InstrWord) : bits w 31 24 = w.toNat / 2 ^ 24 := Nat.mod_eq_of_lt (by omega)

/-- The opcode of a word that decodes is one of the table's. -/
theorem opcode_mem_codes_of_decode {w : InstrWord} {i : Instr} (hdec : decode w = .instr i) :
    w.toNat / 2 ^ 24 ∈ opRows.map (·.code) := by
  obtain ⟨r, hr, ⟨hcode, -⟩, -⟩ := decode_eq_instr_iff.1 hdec
  rw [← bits_opcode_eq, hcode]
  exact List.mem_map_of_mem hr

theorem exists_illegal_of_forall_ne {w : InstrWord} (h : ∀ i, decode w ≠ .instr i) :
    ∃ why, decode w = .illegal why := by
  cases hdec : decode w with
  | instr i => exact absurd hdec (h i)
  | illegal why => exact ⟨why, rfl⟩

end Sys2Proof

namespace Sys2Proof.Machine

theorem illegalWord_eq (w : InstrWord) : illegalWord w = ⟨.illegalInstruction, BitVec.ofNat 64 w.toNat⟩ := by
  rw [illegalWord, BitVec.ofNat_toNat]

/-- Settles O7: such a word decodes to no instruction, and the error stop is the whole step. -/
theorem illegalWordsStop : Obligations.IllegalWordsStop := by
  rintro s w op hrun hpc hw rfl hbad
  have hnot : ∀ i, decode w ≠ .instr i := by
    intro i hdec
    obtain hunassigned | hrejected := hbad
    · exact not_unassigned_of_mem_codes _ (opcode_mem_codes_of_decode hdec) hunassigned
    · obtain ⟨m, hm, haccepts, -⟩ := exists_maskRow_of_decode hdec
      exact absurd haccepts (by simp [hrejected m hm])
  obtain ⟨why, hillegal⟩ := exists_illegal_of_forall_ne hnot
  have hfetch : fetch s = some w := by rw [fetch, if_pos hpc, hw]
  rw [← illegalWord_eq]
  exact kernelTurnStops_of_kernelStep fun rest =>
    kernelStep_illegal (s := { s with turns := rest }) hrun hfetch hillegal

end Sys2Proof.Machine
end

section
/-! PROOFS. The expansion of `LI` (30_encoding.md R137): each step of it loads one more chunk of the constant. -/

namespace Sys2Proof.Machine

/-! ### Instructions one after another (R136) -/

theorem execAll_cons {i : Instr} {is : List Instr} {s t : State} (h : exec i s = .next t) :
    execAll (i :: is) s = execAll is t := by rw [execAll, h]

/-! ### Loading a register -/

/-- The register holds the value, pc is n more, the rest is kept. -/
def Loads (d : XReg) (v : Word) (n : Nat) (s t : State) : Prop :=
  (∀ k, readX t k = if k = d then v else readX s k) ∧ t.pc = s.pc + BitVec.ofNat 32 n ∧
  KeepsB s t ∧ KeepsAcc s t ∧ KeepsMemory s t ∧ KeepsControl s t ∧ KeepsModel s t

section
variable {d : XReg} {s t r : State} {u v : Word} {m n : Nat}

theorem Loads.readX_self (h : Loads d v n s t) : readX t d = v := by rw [h.1, if_pos rfl]

/-- What is loaded later replaces what was loaded before, and all else is kept by both. -/
theorem Loads.trans (h : Loads d u m s t) (h' : Loads d v n t r) : Loads d v (m + n) s r := by
  obtain ⟨hx, hpc, hb, hacc, hmem, hctl, hmodel⟩ := h
  obtain ⟨hx', hpc', hb', hacc', hmem', hctl', hmodel'⟩ := h'
  refine ⟨fun k => ?x, ?pc, fun j => (hb' j).trans (hb j), ⟨hacc'.1.trans hacc.1, hacc'.2.trans hacc.2⟩,
    ⟨fun a => (hmem'.1 a).trans (hmem.1 a), fun i => (hmem'.2 i).trans (hmem.2 i)⟩, ?control, ?model⟩
  case x => rw [hx', hx]; split <;> rfl
  case pc => rw [hpc', hpc, BitVec.ofNat_add, BitVec.add_assoc]
  case control => simp_all [KeepsControl]
  case model => simp_all [KeepsModel]

theorem loads_zero (s : State) : Loads d (readX s d) 0 s s := by
  refine ⟨fun k => ?x, (BitVec.add_zero _).symm, fun _ => rfl, ⟨rfl, rfl⟩, ⟨fun _ => rfl, fun _ => rfl⟩,
    ⟨rfl, rfl, rfl, rfl, rfl, rfl, rfl, rfl, rfl, rfl⟩, ⟨rfl, rfl, rfl, rfl⟩⟩
  case x =>
    split
    · next hk => rw [hk]
    · rfl

theorem loads_one (hd : d ≠ 0) (v : Word) (s : State) : Loads d v 1 s (retire (writeX d v s)) := by
  refine ⟨fun k => ?x, rfl, fun _ => rfl, ⟨rfl, rfl⟩, ⟨fun _ => rfl, fun _ => rfl⟩,
    ⟨rfl, rfl, rfl, rfl, rfl, rfl, rfl, rfl, rfl, rfl⟩, ⟨rfl, rfl, rfl, rfl⟩⟩
  case x =>
    rw [readX_retire, readX_writeX]
    by_cases hk : k = d
    · simp [hk, hd]
    · simp [hk]

end

/-! ### Chunks of a constant (R137) -/

/-- The constant without its k lowest chunks. -/
def liHigh (v : Word) (k : Nat) : Word := BitVec.ofNat 64 (v.toNat / 2 ^ (16 * k))

theorem liHigh_zero (v : Word) : liHigh v 0 = v := by simp [liHigh]

theorem toNat_liHigh (v : Word) (k : Nat) : (liHigh v k).toNat = v.toNat / 2 ^ (16 * k) := by
  rw [liHigh, BitVec.toNat_ofNat]
  exact Nat.mod_eq_of_lt ((Nat.div_le_self _ _).trans_lt v.isLt)

/-- A shift by 16 and an or bring in the next lower chunk. -/
theorem shiftLeft_or_liChunk (v : Word) (k : Nat) :
    shiftLeft (liHigh v (k + 1)) 16 ||| zext64 (liChunk v k) = liHigh v k := by
  apply BitVec.eq_of_toNat_eq
  have hdiv : v.toNat / 2 ^ (16 * (k + 1)) = v.toNat / 2 ^ (16 * k) / 2 ^ 16 := by
    rw [Nat.mul_add, pow_add, Nat.div_div_eq_div_mul]
  have hlt := (liHigh v k).isLt
  rw [toNat_liHigh] at hlt
  have hhigh : (shiftLeft (liHigh v (k + 1)) 16).toNat = 2 ^ 16 * (v.toNat / 2 ^ (16 * k) / 2 ^ 16) := by
    rw [shiftLeft, BitVec.toNat_ofNat, toNat_liHigh, hdiv]; omega
  have hlow : (zext64 (liChunk v k)).toNat = v.toNat / 2 ^ (16 * k) % 2 ^ 16 := by
    rw [zext64, liChunk, BitVec.toNat_setWidth, BitVec.toNat_ofNat]; omega
  rw [BitVec.toNat_or, hhigh, hlow, ← Nat.two_pow_add_eq_or_of_lt (Nat.mod_lt _ (by decide)), toNat_liHigh]
  exact Nat.div_add_mod _ _

/-- The chunks above the highest nonzero one are 0. -/
theorem liHigh_liTop (v : Word) : liHigh v (liTop v) = zext64 (liChunk v (liTop v)) := by
  have hzero (k : Nat) : ¬ liChunk v k ≠ 0 ↔ v.toNat / 2 ^ (16 * k) % 2 ^ 16 = 0 := by
    rw [not_not, ← BitVec.toNat_inj, liChunk, BitVec.toNat_ofNat]; rfl
  have htop : v.toNat / 2 ^ (16 * liTop v) < 2 ^ 16 := by
    have hlt := v.isLt
    rw [liTop]
    split
    · omega
    · next h3 =>
      rw [hzero] at h3
      split
      · omega
      · next h2 =>
        rw [hzero] at h2
        split
        · omega
        · next h1 => rw [hzero] at h1; omega
  apply BitVec.eq_of_toNat_eq
  rw [toNat_liHigh, zext64, liChunk, BitVec.toNat_setWidth, BitVec.toNat_ofNat, Nat.mod_eq_of_lt htop,
    Nat.mod_eq_of_lt (htop.trans (by decide))]

theorem sext64_setWidth {v : Word} (hlo : -32768 ≤ v.toInt) (hhi : v.toInt ≤ 32767) : sext64 (v.setWidth 16) = v := by
  apply BitVec.eq_of_toInt_eq
  rw [BitVec.toInt_eq_toNat_bmod, Int.bmod] at hlo hhi
  rw [sext64, BitVec.toInt_signExtend_of_le (by decide), BitVec.toInt_setWidth, BitVec.toInt_eq_toNat_bmod, Int.bmod,
    Int.bmod]
  omega

/-! ### The expansion, one instruction at a time -/

section
variable {d : XReg} {s : State} {v : Word} {is : List Instr}

/-- The instructions answer a state in which the register holds the value, one step of pc for each of them. -/
def LoadsBy (is : List Instr) (d : XReg) (v : Word) (s : State) : Prop :=
  ∃ t, execAll is s = .next t ∧ Loads d v is.length s t

theorem loadsBy_nil (s : State) : LoadsBy [] d (readX s d) s := ⟨s, rfl, loads_zero s⟩

/-- An instruction that writes the register is a first step of loading it. -/
theorem LoadsBy.cons {i : Instr} {u : Word} (hd : d ≠ 0) (hexec : exec i s = writeXNext d u s)
    (h : ∀ t, readX t d = u → LoadsBy is d v t) : LoadsBy (i :: is) d v s := by
  have hone := loads_one hd u s
  obtain ⟨t, ht, hloads⟩ := h _ hone.readX_self
  refine ⟨t, by rw [execAll_cons hexec, ht], ?_⟩
  rw [List.length_cons, Nat.add_comm]
  exact hone.trans hloads

/-- From the constant's high chunks, the tail of the expansion loads the whole of it. -/
theorem loadsBy_liTail (hd : d ≠ 0) (v : Word) (k : Nat) (hx : readX s d = liHigh v k) :
    LoadsBy (liTail d v k) d v s := by
  induction k generalizing s with
  | zero =>
    rw [liHigh_zero] at hx
    exact hx ▸ loadsBy_nil s
  | succ k ih =>
    refine .cons hd rfl fun t ht => .cons hd rfl fun r hr => ih ?_
    rw [hr, ht, hx, shiftLeft_or_liChunk]

theorem loadsBy_expandLi (hd : d ≠ 0) (v : Word) (s : State) : LoadsBy (expandLi d v) d v s := by
  rw [expandLi]
  split
  · next hfits =>
    refine .cons hd rfl fun t ht => ?_
    rw [readX_zero, zero_add, sext64_setWidth hfits.1 hfits.2] at ht
    exact ht ▸ loadsBy_nil t
  · refine .cons hd rfl fun t ht => loadsBy_liTail hd v _ ?_
    rw [ht, liHigh_liTop, readX_zero]
    exact BitVec.zero_or

end

/-- Settles O60: the first instruction loads the constant or its high chunks, and the tail brings in the others. -/
theorem loadConstantExpansion : Obligations.LoadConstantExpansion := fun _ v s hd => loadsBy_expandLi hd v s

end Sys2Proof.Machine
end

section
/-! PROOFS. The 64 x 64 multiply and the accumulator, 40_limb_mac.md: the word of a format R instruction, one rule for
each shape in which these instructions end, and the bounds that keep their exact values within 128 bits. -/

namespace Sys2Proof.Machine

/-! ### Words (R111, R113) -/

/-- By the round trip of the decoder, the number of a well-formed instruction's word fixes both sides of `HasWord`. -/
theorem hasWord_of_toNat_encode {i : Instr} {n : Nat} (hwf : i.wellFormed = true) (hn : (encode i).toNat = n) :
    HasWord i n := by
  refine ⟨hn, ?_⟩
  rw [← hn, BitVec.ofNat_toNat, BitVec.setWidth_eq]
  exact decodeEncodeRoundTrip i hwf

/-- The bounds of the fields are closed at the call, where the opcode is a numeral and the slots are registers. -/
theorem hasWord_rWord {i : Instr} {op a b c d : Nat} (hwf : i.wellFormed = true) (hword : encode i = wordR op a b c d)
    (ho : op < 256 := by omega) (ha : a < 16 := by omega) (hb : b < 16 := by omega) (hc : c < 16 := by omega)
    (hd : d < 16 := by omega) : HasWord i (rWord op a b c d) :=
  hasWord_of_toNat_encode hwf (by rw [hword, toNat_wordR ho ha hb hc hd, rWord])

/-! ### The shapes of a result -/

section
variable {i : Instr} {s : State}

/-- A scalar result, x0 included. -/
theorem completes_of_writeXNext {d : XReg} {v : Word} (h : exec i s = writeXNext d v s) :
    Completes i s (ScalarResult d v s) := by
  refine ⟨_, h, fun k => ?_, rfl, fun _ => rfl, ⟨rfl, rfl⟩, ⟨fun _ => rfl, fun _ => rfl⟩, ?control, ?model⟩
  · rw [readX_retire, readX_writeX]
  case control => simp [KeepsControl]
  case model => simp [KeepsModel]

/-- R153 to R156: a new ACC with its carry. -/
theorem completes_of_setAcc_setC {a : Acc} {c : Bool} (h : exec i s = .next (retire (setC c (setAcc a s)))) :
    Completes i s (AccResult a.toNat c s) := by
  refine ⟨_, h, rfl, rfl, rfl, fun _ => rfl, fun _ => rfl, ⟨fun _ => rfl, fun _ => rfl⟩, ?control, ?model⟩
  case control => simp [KeepsControl]
  case model => simp [KeepsModel]

/-- R159, R160: a part split off ACC, with x0 discarding only the part. -/
theorem completes_of_writeXNext_setAcc {d : XReg} {v : Nat} {a : Acc}
    (h : exec i s = writeXNext d (BitVec.ofNat 64 v) (setAcc a s)) :
    Completes i s (ScalarAccResult d v a.toNat s) := by
  refine ⟨_, h, fun k => ?_, rfl, rfl, rfl, fun _ => rfl, ⟨fun _ => rfl, fun _ => rfl⟩, ?control, ?model⟩
  · rw [readX_retire, readX_writeX, readX_setAcc]
  case control => simp [KeepsControl]
  case model => simp [KeepsModel]

end

/-! ### Values of the accumulator -/

theorem toNat_wrap128 (n : Nat) : (wrap128 n).toNat = n % 2 ^ 128 := BitVec.toNat_ofNat n 128

theorem toNat_wrap128_of_lt {n : Nat} (h : n < 2 ^ 128) : (wrap128 n).toNat = n := by
  rw [toNat_wrap128, Nat.mod_eq_of_lt h]

/-- R153: a product of two 64-bit words fits in 128 bits. -/
theorem toNat_wrap128_mul (u v : Word) : (wrap128 (u.toNat * v.toNat)).toNat = u.toNat * v.toNat :=
  toNat_wrap128_of_lt (BitVec.toNat_mul_toNat_lt (x := u) (y := v))

/-- R156: two 64-bit halves make a 128-bit value. -/
theorem toNat_wrap128_halves (u v : Word) :
    (wrap128 (u.toNat * 2 ^ 64 + v.toNat)).toNat = u.toNat * 2 ^ 64 + v.toNat :=
  toNat_wrap128_of_lt (by omega)

/-- R159, R160: what remains of ACC after a division needs no reduction. -/
theorem toNat_wrap128_div (a : Acc) (n : Nat) : (wrap128 (a.toNat / n)).toNat = a.toNat / n :=
  toNat_wrap128_of_lt ((Nat.div_le_self _ _).trans_lt a.isLt)

/-- R151: a write of a 64-bit register keeps the low half. -/
theorem ofNat_mod_two_pow (n : Nat) : BitVec.ofNat 64 (n % 2 ^ 64) = BitVec.ofNat 64 n :=
  BitVec.eq_of_toNat_eq (by simp)

/-! ### The instructions -/

/-- Settles O25: each of the four ends in a scalar write; the low half of the product is what the register holds of the
whole product. -/
theorem multiplyAndAccumulatorHalves : Obligations.MultiplyAndAccumulatorHalves := by
  intro d a b s
  refine ⟨⟨hasWord_rWord rfl rfl, ?mullo⟩, ⟨hasWord_rWord rfl rfl, ?mulhu⟩, ⟨hasWord_rWord rfl rfl, ?acclo⟩,
    hasWord_rWord rfl rfl, ?acchi⟩
  case mullo =>
    rw [ofNat_mod_two_pow]
    exact completes_of_writeXNext rfl
  case mulhu => exact completes_of_writeXNext rfl
  case acclo => exact completes_of_writeXNext rfl
  case acchi => exact completes_of_writeXNext rfl

/-- Settles O26: each of the four ends in a new ACC with its C; a product and a pair of halves are below 2^128, and the
sums are taken modulo 2^128. -/
theorem accumulatorWrites : Obligations.AccumulatorWrites := by
  intro a b s
  refine ⟨⟨hasWord_rWord rfl rfl, ?mul128⟩, ⟨hasWord_rWord rfl rfl, ?mac128⟩, ⟨hasWord_rWord rfl rfl, ?accadd⟩,
    hasWord_rWord rfl rfl, ?accset⟩
  case mul128 =>
    rw [← toNat_wrap128_mul]
    exact completes_of_setAcc_setC rfl
  case mac128 =>
    rw [← toNat_wrap128]
    exact completes_of_setAcc_setC rfl
  case accadd =>
    rw [← toNat_wrap128]
    exact completes_of_setAcc_setC rfl
  case accset =>
    rw [← toNat_wrap128_halves]
    exact completes_of_setAcc_setC rfl

/-- Settles O27: both end in a scalar write beside a new ACC, and the quotient of ACC is below 2^128. -/
theorem accumulatorSplits : Obligations.AccumulatorSplits := by
  intro d s
  refine ⟨⟨hasWord_rWord rfl rfl, ?accnorm⟩, hasWord_rWord rfl rfl, ?accpop⟩
  case accnorm =>
    rw [← toNat_wrap128_div]
    exact completes_of_writeXNext_setAcc rfl
  case accpop =>
    rw [← toNat_wrap128_div]
    exact completes_of_writeXNext_setAcc rfl

end Sys2Proof.Machine
end

section
/-! PROOFS. BigInt arithmetic, 41_bigint.md: the word of a format I instruction, the shapes of a big result and of a
checked one, and the bounds on lengths by which the instructions that cannot overflow complete. -/

namespace Sys2Proof.Machine

/-! ### Words (R111, R114) -/

/-- The bounds of the fields are closed at the call, where the opcode is a numeral and the slots are registers. -/
theorem hasWord_iWord {i : Instr} {op a b imm : Nat} (hwf : i.wellFormed = true) (hword : encode i = wordI op a b imm)
    (ho : op < 256 := by omega) (ha : a < 16 := by omega) (hb : b < 16 := by omega) (hi : imm < 65536 := by omega) :
    HasWord i (iWord op a b imm) :=
  hasWord_of_toNat_encode hwf (by rw [hword, toNat_wordI ho ha hb hi, iWord])

/-! ### The shapes of a result -/

section
variable {i : Instr} {s : State} {d : BReg} {v : Int}

theorem stopsWith_of_raise {e : Error} (h : exec i s = raise e s) : StopsWith i s e :=
  ⟨_, h, errorEntry_errorStop e s⟩

theorem bigResult_retire_setB (d : BReg) (v : Int) (s : State) : BigResult d v s (retire (setB d v s)) := by
  refine ⟨fun j => ?_, rfl, fun _ => rfl, ⟨rfl, rfl⟩, ⟨fun _ => rfl, fun _ => rfl⟩, ?control, ?model⟩
  · rw [readB_retire, readB_setB]
  case control => simp [KeepsControl]
  case model => simp [KeepsModel]

/-- R180: a big write checks the capacity and nothing else. -/
theorem fitsOrStops_of_writeBig (h : exec i s = writeBig d v s) : FitsOrStops i d v s :=
  ⟨fun hfits => ⟨_, h.trans (writeBig_fits hfits), bigResult_retire_setB d v s⟩,
    fun hover => stopsWith_of_raise (h.trans (writeBig_over hover))⟩

theorem completes_of_writeBig (h : exec i s = writeBig d v s) (hfits : len v ≤ s.params.lmax) :
    Completes i s (BigResult d v s) :=
  (fitsOrStops_of_writeBig h).1 hfits

/-- R184, R185: where the value fits, a zero divisor is the only stop. -/
theorem completes_or_stops_of_divisorError {m : Int} (h : exec i s = writeBigUnless (divisorError m) d (fun _ => v) s)
    (hfits : len v ≤ s.params.lmax) :
    (m ≠ 0 → Completes i s (BigResult d v s)) ∧ (m = 0 → StopsWith i s ⟨.divisionByZero, 0⟩) := by
  constructor
  · intro hm
    rw [divisorError_none_iff.2 hm, writeBigUnless_none] at h
    exact completes_of_writeBig h hfits
  · rintro rfl
    exact stopsWith_of_raise h

end

/-! ### Lengths (R13) -/

theorem len_le_len_of_natAbs_le {u v : Int} (h : u.natAbs ≤ v.natAbs) : len u ≤ len v := by
  rw [len_eq_log, len_eq_log]
  exact Nat.succ_le_succ (Nat.log_mono_right h)

theorem len_neg (v : Int) : len (-v) = len v := by rw [len, Int.natAbs_neg, len]

/-- R184: a quotient is no longer than its dividend. -/
theorem len_tdiv_le (a b : Int) : len (a.tdiv b) ≤ len a :=
  len_le_len_of_natAbs_le (Int.natAbs_tdiv a b ▸ Nat.div_le_self _ _)

/-- R185: a remainder is no longer than its dividend. -/
theorem len_tmod_le (a b : Int) : len (a.tmod b) ≤ len a :=
  len_le_len_of_natAbs_le (Int.natAbs_tmod a b ▸ Nat.mod_le _ _)

/-- R189, R190: a 64-bit value has a magnitude of at most 2^63, so at most three limbs. -/
theorem len_toInt_le_three (v : Word) : len v.toInt ≤ 3 := by
  have hlow := v.le_toInt
  have hhigh := v.toInt_lt
  exact len_le_of_natAbs_lt (by decide) (by rw [limbBase_eq]; omega)

/-! ### Values -/

theorem toInt_sext64 (imm : BitVec 16) : (sext64 imm).toInt = imm.toInt := BitVec.toInt_signExtend_of_le (by decide)

/-- R187: -1 as a 64-bit value has every bit set. -/
theorem compareWord_eq (a b : Int) :
    compareWord a b = if a < b then 0xFFFFFFFFFFFFFFFF else if a = b then 0 else 1 := rfl

/-- R192: beyond the length the quotient by the power is 0, so BLIMB reads one digit at every index. -/
theorem limbAt_eq (v : Int) (i : Nat) : limbAt v i = v.natAbs / limbBase ^ i % limbBase := by
  rw [limbAt]
  split
  · rfl
  · next hbeyond =>
    have hlt : v.natAbs < limbBase ^ i :=
      (natAbs_lt_limbBase_pow_len v).trans_le (Nat.pow_le_pow_right limbBase_pos (Nat.not_lt.1 hbeyond))
    rw [Nat.div_eq_of_lt hlt, Nat.zero_mod]

/-! ### The instructions -/

/-- Settles O28: both end in a big write of the exact value. -/
theorem bigAddAndSubtract : Obligations.BigAddAndSubtract := fun _ _ _ _ =>
  ⟨⟨hasWord_rWord rfl rfl, fitsOrStops_of_writeBig rfl⟩, hasWord_rWord rfl rfl, fitsOrStops_of_writeBig rfl⟩

/-- Settles O29: a negation is as long as its source, which fits. -/
theorem bigNegateAndMove : Obligations.BigNegateAndMove := by
  intro d a s hfits
  refine ⟨⟨hasWord_rWord rfl rfl, ?bneg⟩, hasWord_rWord rfl rfl, ?bmov⟩
  case bneg => exact completes_of_writeBig rfl ((len_neg _).trans_le hfits)
  case bmov => exact completes_of_writeBig rfl hfits

/-- Settles O30: a value of 16 or 64 bits has at most three limbs. -/
theorem bigConstruction : Obligations.BigConstruction := by
  intro d x imm s hlmax
  refine ⟨⟨hasWord_rWord rfl rfl, ?bfromx⟩, hasWord_iWord rfl rfl, ?bli⟩
  case bfromx => exact completes_of_writeBig rfl ((len_toInt_le_three _).trans (by omega))
  case bli =>
    rw [← toInt_sext64]
    exact completes_of_writeBig rfl ((len_toInt_le_three _).trans (by omega))

/-- Settles O31: the divisor is checked first, and neither result is longer than the dividend. -/
theorem divisionAndRemainder : Obligations.DivisionAndRemainder := by
  intro d a b s hfits _
  refine ⟨⟨hasWord_rWord rfl rfl, ?bdiv⟩, hasWord_rWord rfl rfl, ?brem⟩
  case bdiv =>
    rw [← tdiv_eq]
    exact completes_or_stops_of_divisorError rfl (tdiv_eq .. ▸ (len_tdiv_le ..).trans hfits)
  case brem =>
    rw [← trem_eq]
    exact completes_or_stops_of_divisorError rfl (trem_eq .. ▸ (len_tmod_le ..).trans hfits)

/-- Settles O33: each of the four ends in a scalar write. -/
theorem bigInspection : Obligations.BigInspection := by
  intro d x a b s
  refine ⟨⟨hasWord_rWord rfl rfl, ?bcmp⟩, ⟨hasWord_rWord rfl rfl, ?blen⟩, ⟨hasWord_rWord rfl rfl, ?blimb⟩,
    hasWord_rWord rfl rfl, ?bsgn⟩
  case bcmp =>
    rw [← compareWord_eq]
    exact completes_of_writeXNext rfl
  case blen => exact completes_of_writeXNext rfl
  case blimb =>
    rw [← limbBase_eq, ← limbAt_eq]
    exact completes_of_writeXNext rfl
  case bsgn => exact completes_of_writeXNext rfl

end Sys2Proof.Machine
end

section
/-! PROOFS. Multiplication, 42_multiply.md: an answer of the reference decomposition is the product at every threshold,
and from threshold 3 on the larger operand shrinks at every split, so that there is an answer. -/

namespace Sys2Proof.Machine

/-! ### The three-term identity (R224) -/

/-- The middle product holds the two cross products beside the outer ones, so its subtraction loses nothing. -/
theorem karatsuba_middle (a₀ a₁ b₀ b₁ : Nat) :
    (a₀ + a₁) * (b₀ + b₁) - a₀ * b₀ - a₁ * b₁ = a₀ * b₁ + a₁ * b₀ := by
  have hexpand : (a₀ + a₁) * (b₀ + b₁) = a₀ * b₁ + a₁ * b₀ + (a₀ * b₀ + a₁ * b₁) := by ring
  rw [hexpand, Nat.sub_sub, Nat.add_sub_cancel]

theorem karatsuba_recombine (p a b : Nat) :
    a / p * (b / p) * p ^ 2 +
      ((a % p + a / p) * (b % p + b / p) - a % p * (b % p) - a / p * (b / p)) * p + a % p * (b % p) = a * b := by
  rw [karatsuba_middle]
  calc _ = (p * (a / p) + a % p) * (p * (b / p) + b % p) := by ring
    _ = a * b := by rw [Nat.div_add_mod, Nat.div_add_mod]

/-! ### One level of the decomposition (R224, R226) -/

section
variable {t fuel a b : Nat}

/-- R224, R226: the power of the limb base at which a pair of operands is split. -/
def karaBase (a b : Nat) : Nat := limbBase ^ karaSplitAt (len a) (len b)

theorem kara_zero (t a b : Nat) : kara t 0 a b = none := rfl

theorem kara_direct (fuel : Nat) (h : len a + len b < t) : kara t (fuel + 1) a b = some (a * b) := by
  rw [kara, if_pos (by simpa [karaSplits] using h)]

theorem kara_split (fuel : Nat) (h : t ≤ len a + len b) :
    kara t (fuel + 1) a b =
      (kara t fuel (a % karaBase a b) (b % karaBase a b)).bind fun z₀ =>
      (kara t fuel (a / karaBase a b) (b / karaBase a b)).bind fun z₂ =>
      (kara t fuel (a % karaBase a b + a / karaBase a b) (b % karaBase a b + b / karaBase a b)).map fun zₘ =>
        z₂ * karaBase a b ^ 2 + (zₘ - z₀ - z₂) * karaBase a b + z₀ := by
  rw [karaBase, kara, if_neg (by simpa [karaSplits] using h)]
  dsimp only
  generalize limbBase ^ karaSplitAt (len a) (len b) = p
  rcases kara t fuel (a % p) (b % p) with _ | z₀
  · rfl
  rcases kara t fuel (a / p) (b / p) with _ | z₂
  · rfl
  rcases kara t fuel (a % p + a / p) (b % p + b / p) with _ | zₘ <;> rfl

/-! ### An answer is the product (R225) -/

theorem eq_mul_of_kara_eq_some {v : Nat} (h : kara t fuel a b = some v) : v = a * b := by
  induction fuel generalizing a b v with
  | zero => rw [kara_zero] at h; cases h
  | succ fuel ih =>
    obtain hlt | hsplit := Nat.lt_or_ge (len a + len b) t
    · rw [kara_direct fuel hlt] at h
      exact (Option.some.inj h).symm
    · simp only [kara_split fuel hsplit, Option.bind_eq_some_iff, Option.map_eq_some_iff] at h
      obtain ⟨z₀, hlow, z₂, hhigh, zₘ, hmiddle, rfl⟩ := h
      rw [ih hlow, ih hhigh, ih hmiddle, karatsuba_recombine]

/-! ### The larger operand shrinks (R227) -/

theorem limbBase_pow_le_of_lt_len {n k : Nat} (hk : 1 ≤ k) (h : k < len n) : limbBase ^ k ≤ n :=
  Nat.not_lt.1 fun hlt => absurd (len_le_of_natAbs_lt (v := n) hk hlt) (Nat.not_le.2 h)

theorem one_le_len (v : Int) : 1 ≤ len v := (len_eq_log v).symm ▸ Nat.succ_pos _

theorem one_le_karaSplitAt {la lb : Nat} (h : 3 ≤ la + lb) : 1 ≤ karaSplitAt la lb := by rw [karaSplitAt]; omega

/-- The split leaves a high part in the longer operand. -/
theorem karaBase_le_max (h : 3 ≤ len a + len b) : karaBase a b ≤ max a b := by
  have hone : 1 ≤ karaSplitAt (len a) (len b) := one_le_karaSplitAt h
  have hlt : karaSplitAt (len a) (len b) < max (len a) (len b) := by rw [karaSplitAt]; omega
  obtain ha | hb := lt_max_iff.1 hlt
  · exact le_max_of_le_left (limbBase_pow_le_of_lt_len hone ha)
  · exact le_max_of_le_right (limbBase_pow_le_of_lt_len hone hb)

theorem one_lt_karaBase (h : 3 ≤ len a + len b) : 1 < karaBase a b :=
  Nat.one_lt_pow (Nat.one_le_iff_ne_zero.1 (one_le_karaSplitAt h)) one_lt_limbBase

/-- R227: with a high part the parts add up to less than the number; without one the number is below the base. -/
theorem mod_add_div_lt {n m p : Nat} (hp : 1 < p) (hpm : p ≤ m) (hn : n ≤ m) : n % p + n / p < m := by
  obtain hzero | hpos := Nat.eq_zero_or_pos (n / p)
  · have hmod : n % p < p := Nat.mod_lt _ (by omega)
    omega
  · calc n % p + n / p < n % p + p * (n / p) := Nat.add_lt_add_left (lt_mul_of_one_lt_left hpos hp) _
      _ = n := Nat.mod_add_div n p
      _ ≤ m := hn

theorem exists_kara_eq_some (ht : 3 ≤ t) (h : max a b < fuel) : ∃ v, kara t fuel a b = some v := by
  induction fuel generalizing a b with
  | zero => omega
  | succ fuel ih =>
    obtain hlt | hsplit := Nat.lt_or_ge (len a + len b) t
    · exact ⟨_, kara_direct fuel hlt⟩
    · have hlen : 3 ≤ len a + len b := ht.trans hsplit
      have hmax : max a b ≤ fuel := Nat.le_of_lt_succ h
      have hparts {n : Nat} (hn : n ≤ max a b) : n % karaBase a b + n / karaBase a b < fuel :=
        (mod_add_div_lt (one_lt_karaBase hlen) (karaBase_le_max hlen) hn).trans_le hmax
      have ha := hparts (le_max_left a b)
      have hb := hparts (le_max_right a b)
      obtain ⟨z₀, hlow⟩ := ih (max_lt ((Nat.le_add_right _ _).trans_lt ha) ((Nat.le_add_right _ _).trans_lt hb))
      obtain ⟨z₂, hhigh⟩ := ih (max_lt ((Nat.le_add_left _ _).trans_lt ha) ((Nat.le_add_left _ _).trans_lt hb))
      obtain ⟨zₘ, hmiddle⟩ := ih (max_lt ha hb)
      exact ⟨_, by rw [kara_split fuel hsplit, hlow, hhigh, hmiddle]; rfl⟩

theorem kara_eq_mul (ht : 3 ≤ t) (h : max a b < fuel) : kara t fuel a b = some (a * b) := by
  obtain ⟨v, hv⟩ := exists_kara_eq_some ht h
  rw [hv, eq_mul_of_kara_eq_some hv]

/-! ### Threshold 2 (R227) -/

theorem len_eq_one {n : Nat} (h : n < limbBase) : len n = 1 :=
  Nat.le_antisymm (len_le_of_natAbs_lt le_rfl (by simpa using h)) (one_le_len _)

/-- One-limb operands are split at limb 0, which gives them back as the high parts. -/
theorem karaBase_eq_one (ha : a < limbBase) (hb : b < limbBase) : karaBase a b = 1 := by
  rw [karaBase, len_eq_one ha, len_eq_one hb]; rfl

theorem kara_two_eq_none (ha : a < limbBase) (hb : b < limbBase) : kara 2 fuel a b = none := by
  induction fuel with
  | zero => exact kara_zero 2 a b
  | succ fuel ih =>
    have hsplit : 2 ≤ len a + len b := by rw [len_eq_one ha, len_eq_one hb]
    rw [kara_split fuel hsplit, karaBase_eq_one ha hb, Nat.div_one, Nat.div_one, ih]
    cases kara 2 fuel (a % 1) (b % 1) <;> rfl

end

/-! ### The signed product (R224) -/

/-- R225: whether the recursion ends or not, the value is the product. -/
theorem getD_kara (t fuel a b : Nat) : (kara t fuel a b).getD (a * b) = a * b := by
  cases h : kara t fuel a b with
  | none => rfl
  | some v => exact eq_mul_of_kara_eq_some h

theorem karatsuba_eq_mul (t : Nat) (a b : Int) : karatsuba t a b = a * b := by
  rw [karatsuba, getD_kara, ← Int.sign_mul, ← Int.natAbs_mul, Int.sign_mul_natAbs]

/-! ### The instructions -/

theorem exec_kmul (d a b : BReg) (s : State) : exec (.kmul d a b) s = writeBig d (readB s a * readB s b) s := by
  rw [← karatsuba_eq_mul s.kthresh.toNat]; rfl

/-- Settles O35: both end in a big write of the product. -/
theorem productsAreExact : Obligations.ProductsAreExact := fun d a b s =>
  ⟨⟨hasWord_rWord rfl rfl, fitsOrStops_of_writeBig rfl⟩,
    hasWord_rWord rfl rfl, fitsOrStops_of_writeBig (exec_kmul d a b s)⟩

/-- Settles O36: the product of KMUL is that of BMUL, and all else follows from the product. -/
theorem karatsubaEqualsSchoolbook : Obligations.KaratsubaEqualsSchoolbook := exec_kmul

/-- Settles O37: from threshold 3 on each level lowers the larger operand; at 2 one-limb operands come back. -/
theorem karatsubaEndsWithTheProduct : Obligations.KaratsubaEndsWithTheProduct :=
  ⟨fun _ _ _ ht => kara_eq_mul ht (Nat.lt_succ_self _), fun _ _ _ ha hb =>
    kara_two_eq_none (limbBase_eq ▸ ha) (limbBase_eq ▸ hb)⟩

end Sys2Proof.Machine
end

section
/-! PROOFS. Modular arithmetic, 43_modular.md: what each check raises, the two ends of a checked big write, and the
repeated squaring of MEXP, whose value is the residue of the power. -/

namespace Sys2Proof.Machine

/-! ### Checks (R240, R247, 44_montgomery.md R270) -/

section
variable {m n : Int} {e : Error}

theorem modulusError_zero : modulusError 0 = some ⟨.divisionByZero, 0⟩ := rfl

theorem modulusError_of_neg (h : m < 0) : modulusError m = some ⟨.domainError, 2⟩ := by
  rw [modulusError, if_neg h.ne, if_pos h]

/-- 60_exceptions.md R364: MEXP checks the modulus before the exponent. -/
theorem exponentError_of_modulusError (n : Int) (h : modulusError m = some e) : exponentError n m = some e := by
  rw [exponentError, h]

theorem exponentError_of_neg (hm : 0 < m) (hn : n < 0) : exponentError n m = some ⟨.domainError, 1⟩ := by
  rw [exponentError, modulusError_eq_none hm]
  exact if_pos hn

/-- 60_exceptions.md R364: a Montgomery instruction checks the sign of the modulus before its common factors with 10. -/
theorem montgomeryError_of_modulusError (h : modulusError m = some e) : montgomeryError m = some e := by
  rw [montgomeryError, h]

end

/-! ### Lengths (00_scope.md R13) -/

/-- A residue in [0, m) is no longer than the modulus. -/
theorem len_emod_le (a : Int) {m : Int} (hm : 0 < m) : len (a % m) ≤ len m := by
  have hnonneg := Int.emod_nonneg a hm.ne'
  have hlt := Int.emod_lt_of_pos a hm
  exact len_le_len_of_natAbs_le (by omega)

/-- R250: the 1 of exponent 0 is no longer than any modulus. -/
theorem len_one_le_len (v : Int) : len 1 ≤ len v := one_le_len v

/-! ### The ends of a checked big write -/

section
variable {i : Instr} {s : State} {d : BReg} {check : Option Error} {v m : Int}

theorem stopsWith_of_check {e : Error} (h : exec i s = writeBigUnless check d (fun _ => v) s)
    (hcheck : check = some e) : StopsWith i s e := by
  rw [hcheck] at h
  exact stopsWith_of_raise h

theorem completes_of_check (h : exec i s = writeBigUnless check d (fun _ => v) s) (hcheck : check = none)
    (hfits : len v ≤ s.params.lmax) : Completes i s (BigResult d v s) := by
  rw [hcheck, writeBigUnless_none] at h
  exact completes_of_writeBig h hfits

/-- R240: where the checks pass and the modulus fits, the residue is written. -/
theorem completes_of_mathMod (h : exec i s = writeBigUnless check d (fun _ => mathMod v m) s) (hcheck : check = none)
    (hm : 0 < m) (hfits : len m ≤ s.params.lmax) : Completes i s (BigResult d (v % m) s) :=
  completes_of_check (mathMod_eq_emod v hm ▸ h) hcheck ((len_emod_le v hm).trans hfits)

/-- R240, R364: a check that raises what the modulus check raises stops on a bad modulus. -/
theorem stopsWith_of_badModulus (h : exec i s = writeBigUnless check d (fun _ => v) s)
    (hcheck : ∀ e, modulusError m = some e → check = some e) :
    (m = 0 → StopsWith i s ⟨.divisionByZero, 0⟩) ∧ (m < 0 → StopsWith i s ⟨.domainError, 2⟩) := by
  constructor
  · rintro rfl
    exact stopsWith_of_check h (hcheck _ modulusError_zero)
  · intro hneg
    exact stopsWith_of_check h (hcheck _ (modulusError_of_neg hneg))

end

/-! ### Repeated squaring (R248) -/

section
variable {m : Int} {n : Nat}

theorem powMod_one (a m : Int) (fuel : Nat) : powMod a m (fuel + 1) 1 = mathMod a m := rfl

theorem powMod_two (a m : Int) (fuel : Nat) : powMod a m (fuel + 1) 2 = mathMod (a * a) m := rfl

theorem powMod_halve (a m : Int) (fuel : Nat) (h : 3 ≤ n) :
    powMod a m (fuel + 1) n =
      if n % 2 = 1 then mathMod (mathMod (powMod a m fuel (n / 2) * powMod a m fuel (n / 2)) m * a) m
      else mathMod (powMod a m fuel (n / 2) * powMod a m fuel (n / 2)) m := by
  rw [powMod, if_neg (by omega), if_neg (by omega), if_neg (by omega)]

/-- R248: squaring the residue of a power doubles the exponent. -/
theorem emod_pow_mul_self (a m : Int) (k : Nat) : a ^ k % m * (a ^ k % m) % m = a ^ (k + k) % m := by
  rw [← Int.mul_emod, ← pow_add]

/-- R248: one more factor beside the residue of a power. -/
theorem emod_pow_mul (a m : Int) (k : Nat) : a ^ k % m * a % m = a ^ (k + 1) % m := by
  rw [Int.mul_emod, Int.emod_emod, ← Int.mul_emod, ← pow_succ]

/-- R248: the value for an exponent of at least 1, with fuel for every halving. -/
theorem powMod_eq_pow_emod (a : Int) {fuel : Nat} (hm : 0 < m) (hn : 0 < n) (hfuel : n ≤ fuel) :
    powMod a m fuel n = a ^ n % m := by
  induction fuel generalizing n with
  | zero => omega
  | succ fuel ih =>
    obtain rfl | rfl | hthree : n = 1 ∨ n = 2 ∨ 3 ≤ n := by omega
    · rw [powMod_one, mathMod_eq_emod a hm, pow_one]
    · rw [powMod_two, mathMod_eq_emod _ hm, pow_two]
    · rw [powMod_halve a m fuel hthree, ih (by omega) (by omega), mathMod_eq_emod _ hm, mathMod_eq_emod _ hm,
        emod_pow_mul_self]
      split
      · next hodd => rw [emod_pow_mul, show n / 2 + n / 2 + 1 = n by omega]
      · next heven => rw [show n / 2 + n / 2 = n by omega]

theorem expMod_eq_pow_emod (a : Int) (hm : 0 < m) (hn : 0 < n) : expMod a n m = a ^ n % m :=
  powMod_eq_pow_emod a hm hn le_rfl

/-- R250: also for modulus 1, where 1 is no residue. -/
theorem expMod_zero (a m : Int) : expMod a 0 m = 1 := rfl

end

/-! ### The instructions -/

/-- R247: with a valid modulus and an exponent of at least 0, MEXP writes its power, if that fits. -/
theorem completes_mexp {d a n m : BReg} {s : State} {v : Int} (hm : 0 < readB s m) (hn : 0 ≤ readB s n)
    (hv : expMod (readB s a) (readB s n).toNat (readB s m) = v) (hfits : len v ≤ s.params.lmax) :
    Completes (.mexp d a n m) s (BigResult d v s) := by
  subst hv
  exact completes_of_check rfl (exponentError_none_iff.2 ⟨hm, hn⟩) hfits

/-- Settles O38: each of the five ends in a checked write of a residue, which is no longer than the modulus. -/
theorem modularResults : Obligations.ModularResults := by
  intro d a b m s hm hfits
  have hcheck : modulusError (readB s m) = none := modulusError_eq_none hm
  refine ⟨⟨hasWord_rWord rfl rfl, ?mmod⟩, ⟨hasWord_rWord rfl rfl, ?madd⟩, ⟨hasWord_rWord rfl rfl, ?msub⟩,
    ⟨hasWord_rWord rfl rfl, ?mmul⟩, hasWord_rWord rfl rfl, ?msqr⟩
  case mmod => exact completes_of_mathMod rfl hcheck hm hfits
  case madd => exact completes_of_mathMod rfl hcheck hm hfits
  case msub => exact completes_of_mathMod rfl hcheck hm hfits
  case mmul =>
    rw [Int.mul_emod, ← mathMod_eq_emod (readB s a) hm, ← mathMod_eq_emod (readB s b) hm]
    exact completes_of_mathMod rfl hcheck hm hfits
  case msqr => exact completes_of_mathMod rfl hcheck hm hfits

/-- Settles O39: repeated squaring gives the residue of the power; exponent 0 gives 1, which fits where any modulus
does; the exponent is checked after the modulus. -/
theorem modularExponentiation : Obligations.ModularExponentiation := by
  intro d a n m s
  refine ⟨hasWord_rWord rfl rfl, fun hm hfits => ⟨fun hn => ?power, fun hn => ?one, fun hn => ?negative⟩⟩
  case power =>
    exact completes_mexp hm hn.le (expMod_eq_pow_emod _ hm (Int.pos_iff_toNat_pos.1 hn))
      ((len_emod_le _ hm).trans hfits)
  case one =>
    exact completes_mexp hm hn.ge (by rw [hn, Int.toNat_zero, expMod_zero]) ((len_one_le_len _).trans hfits)
  case negative => exact stopsWith_of_check rfl (exponentError_of_neg hm hn)

/-- Settles O40: the five modular instructions check the modulus alone, MEXP and the Montgomery instructions check it
first. -/
theorem badModulusStops : Obligations.BadModulusStops := by
  intro d a b m s
  simp only [List.forall_mem_cons]
  refine ⟨?mmod, ?madd, ?msub, ?mmul, ?msqr, ?mexp, ?mredc, ?mmont, ?mtom, List.forall_mem_nil _⟩
  case mmod => exact stopsWith_of_badModulus rfl fun _ => id
  case madd => exact stopsWith_of_badModulus rfl fun _ => id
  case msub => exact stopsWith_of_badModulus rfl fun _ => id
  case mmul => exact stopsWith_of_badModulus rfl fun _ => id
  case msqr => exact stopsWith_of_badModulus rfl fun _ => id
  case mexp => exact stopsWith_of_badModulus rfl fun _ => exponentError_of_modulusError _
  case mredc => exact stopsWith_of_badModulus rfl fun _ => montgomeryError_of_modulusError
  case mmont => exact stopsWith_of_badModulus rfl fun _ => montgomeryError_of_modulusError
  case mtom => exact stopsWith_of_badModulus rfl fun _ => montgomeryError_of_modulusError

end Sys2Proof.Machine
end

section
/-! PROOFS. Montgomery reduction, 44_montgomery.md: the last digit of the modulus gives the inverse of 10, its power the
inverse of the radix; the laws are congruences in which radix and inverse cancel. -/

namespace Sys2Proof.Machine

/-! ### The inverse of the radix (R270) -/

section
variable {m : Int}

/-- A number coprime to 10 ends in 1, 3, 7 or 9, and the digit chosen for it makes the sum a multiple of 10. -/
theorem ten_mul_tenInverse {n : Nat} (h : Nat.Coprime n 10) : ∃ j, 10 * tenInverse n = 1 + j * n := by
  have htwo : ¬ 2 ∣ n := fun hdvd => Nat.not_coprime_of_dvd_of_dvd (by decide) hdvd (by decide) h
  have hfive : ¬ 5 ∣ n := fun hdvd => Nat.not_coprime_of_dvd_of_dvd (by decide) hdvd (by decide) h
  refine ⟨_, Nat.mul_div_cancel' ?_⟩
  split_ifs <;> omega

theorem ten_mul_tenInverse_modEq (hcoprime : Int.gcd m 10 = 1) : 10 * (tenInverse m.natAbs : Int) ≡ 1 [ZMOD m] := by
  obtain ⟨j, hj⟩ := ten_mul_tenInverse (n := m.natAbs) hcoprime
  have hsum : 10 * (tenInverse m.natAbs : Int) = 1 + j * |m| := by rw [← Int.natCast_natAbs]; exact_mod_cast hj
  rw [hsum]
  exact Int.modEq_iff_dvd.2 (by rw [sub_add_cancel_left]; exact ((self_dvd_abs m).mul_left _).neg_right)

theorem montR_eq (m : Int) : montR m = 10 ^ (9 * len m) := by rw [montR, limbBase_eq, pow_mul]; rfl

theorem montRinv_eq (hm : 0 < m) : montRinv m = (tenInverse m.natAbs : Int) ^ (9 * len m) % m :=
  expMod_eq_pow_emod _ hm (Nat.mul_pos (by decide) (one_le_len m))

theorem montR_mul_montRinv_modEq (hm : 0 < m) (hcoprime : Int.gcd m 10 = 1) : montR m * montRinv m ≡ 1 [ZMOD m] :=
  calc montR m * montRinv m
    _ ≡ montR m * (tenInverse m.natAbs : Int) ^ (9 * len m) [ZMOD m] := by
      rw [montRinv_eq hm]; exact (Int.mod_modEq _ _).mul_left _
    _ = (10 * (tenInverse m.natAbs : Int)) ^ (9 * len m) := by rw [montR_eq, mul_pow]
    _ ≡ 1 ^ (9 * len m) [ZMOD m] := (ten_mul_tenInverse_modEq hcoprime).pow _
    _ = 1 := one_pow _

/-! ### Conversion, reduction and multiplication (R271 to R275) -/

theorem mathMod_modEq (a : Int) (hm : 0 < m) : mathMod a m ≡ a [ZMOD m] := by
  rw [mathMod_eq_emod a hm]; exact Int.mod_modEq a m

theorem mathMod_eq_of_modEq {a b : Int} (hm : 0 < m) (h : a ≡ b [ZMOD m]) : mathMod a m = mathMod b m := by
  rw [mathMod_eq_emod a hm, mathMod_eq_emod b hm]; exact h

/-- R275: a factor R beside Rinv cancels. -/
theorem mul_montR_mul_montRinv_modEq (v : Int) (hm : 0 < m) (hcoprime : Int.gcd m 10 = 1) :
    v * montR m * montRinv m ≡ v [ZMOD m] := by
  simpa only [mul_assoc, mul_one] using (montR_mul_montRinv_modEq hm hcoprime).mul_left v

/-- R271: R times the reduction of v is v modulo m. -/
theorem dvd_montR_mul_reduction (v : Int) (hm : 0 < m) (hcoprime : Int.gcd m 10 = 1) :
    m ∣ montR m * (v * montRinv m % m) - v := by
  refine Int.ModEq.dvd (Int.ModEq.symm ?_)
  calc montR m * (v * montRinv m % m)
    _ ≡ montR m * (v * montRinv m) [ZMOD m] := (Int.mod_modEq _ _).mul_left _
    _ = v * montR m * montRinv m := by ring
    _ ≡ v [ZMOD m] := mul_montR_mul_montRinv_modEq v hm hcoprime

/-- R275: reducing a converted value gives its residue. -/
theorem mathMod_reduce_convert (a : Int) (hm : 0 < m) (hcoprime : Int.gcd m 10 = 1) :
    mathMod (mathMod (a * montR m) m * montRinv m) m = mathMod a m :=
  mathMod_eq_of_modEq hm <|
    ((mathMod_modEq (a * montR m) hm).mul_right _).trans (mul_montR_mul_montRinv_modEq a hm hcoprime)

/-- R275: the Montgomery product of converted values is the converted product. -/
theorem mathMod_montgomery_product (a b : Int) (hm : 0 < m) (hcoprime : Int.gcd m 10 = 1) :
    mathMod (mathMod (a * montR m) m * mathMod (b * montR m) m * montRinv m) m = mathMod (a * b * montR m) m := by
  refine mathMod_eq_of_modEq hm ?_
  calc mathMod (a * montR m) m * mathMod (b * montR m) m * montRinv m
    _ ≡ a * montR m * (b * montR m) * montRinv m [ZMOD m] :=
      ((mathMod_modEq _ hm).mul (mathMod_modEq _ hm)).mul_right _
    _ = a * b * montR m * montR m * montRinv m := by ring
    _ ≡ a * b * montR m [ZMOD m] := mul_montR_mul_montRinv_modEq _ hm hcoprime

theorem mathMod_mul_mathMod (a b : Int) (hm : 0 < m) : mathMod (mathMod a m * mathMod b m) m = mathMod (a * b) m :=
  mathMod_eq_of_modEq hm ((mathMod_modEq a hm).mul (mathMod_modEq b hm))

end

/-! ### The instructions -/

theorem montgomeryError_of_not_coprime {m : Int} (hm : 0 < m) (hshared : Int.gcd m 10 ≠ 1) :
    montgomeryError m = some ⟨.domainError, 3⟩ := by
  rw [montgomeryError, modulusError_eq_none hm]
  exact if_pos hshared

/-- R271, R272: with a valid modulus that fits, a checked write of a reduction writes the number in [0, m) that R takes
to the operand. -/
theorem completes_of_reduction {i : Instr} {s : State} {d : BReg} {v m : Int}
    (h : exec i s = writeBigUnless (montgomeryError m) d (fun _ => mathMod (v * montRinv m) m) s)
    (hm : 0 < m) (hcoprime : Int.gcd m 10 = 1) (hfits : len m ≤ s.params.lmax) :
    ∃ r, 0 ≤ r ∧ r < m ∧ m ∣ 10 ^ (9 * len m) * r - v ∧ Completes i s (BigResult d r s) :=
  ⟨v * montRinv m % m, Int.emod_nonneg _ hm.ne', Int.emod_lt_of_pos _ hm,
    montR_eq m ▸ dvd_montR_mul_reduction v hm hcoprime,
    completes_of_mathMod h (montgomeryError_none_iff.2 ⟨hm, hcoprime⟩) hm hfits⟩

/-- Settles O41: MREDC and MMONT end in a checked write of a reduction, MTOM in one of a residue; a common factor of the
modulus with 10 fails the check of all three. -/
theorem montgomeryResults : Obligations.MontgomeryResults := by
  intro d a b m s hm hfits
  refine ⟨hasWord_rWord rfl rfl, hasWord_rWord rfl rfl, hasWord_rWord rfl rfl,
    fun hcoprime => ⟨?mredc, ?mmont, ?mtom⟩, fun hshared => ?stops⟩
  case mredc => exact completes_of_reduction rfl hm hcoprime hfits
  case mmont => exact completes_of_reduction rfl hm hcoprime hfits
  case mtom =>
    rw [← montR_eq]
    exact completes_of_mathMod rfl (montgomeryError_none_iff.2 ⟨hm, hcoprime⟩) hm hfits
  case stops =>
    have hcheck := montgomeryError_of_not_coprime hm hshared
    exact ⟨stopsWith_of_check rfl hcheck, stopsWith_of_check rfl hcheck, stopsWith_of_check rfl hcheck⟩

/-- Settles O42: Rinv is a residue that undoes R; the last law reduces the converted product of the second. -/
theorem montgomeryLaws : Obligations.MontgomeryLaws := by
  intro m hm hcoprime
  obtain ⟨hnonneg, hlt⟩ : 0 ≤ montRinv m ∧ montRinv m < m := by
    rw [montRinv_eq hm]
    exact ⟨Int.emod_nonneg _ hm.ne', Int.emod_lt_of_pos _ hm⟩
  refine ⟨hnonneg, hlt, (montR_mul_montRinv_modEq hm hcoprime).symm.dvd, fun a b => ⟨?convert, ?product, ?reduced⟩⟩
  case convert => exact mathMod_reduce_convert a hm hcoprime
  case product => exact mathMod_montgomery_product a b hm hcoprime
  case reduced =>
    rw [mathMod_montgomery_product a b hm hcoprime, mathMod_reduce_convert (a * b) hm hcoprime,
      mathMod_mul_mathMod a b hm]

end Sys2Proof.Machine
end

section
/-! PROOFS. Loads and stores, 45_loadstore.md: the words of an image read and written, each check with the address it
names, `loadImage` case by case along R294, and the canonical image of R91 read back. -/

namespace Sys2Proof.Machine

/-! ### Addresses (R86) -/

theorem effectiveAddress_eq (base : Word) (imm : BitVec 16) :
    effectiveAddress base imm = BitVec.ofInt 64 (base.toNat + imm.toInt) := by
  rw [effectiveAddress, sext64, BitVec.signExtend, BitVec.ofInt_add, BitVec.ofInt_natCast, BitVec.ofNat_toNat,
    BitVec.setWidth_eq]

/-! ### Words one after another (R84, R90) -/

theorem memReadWords_eq_map (s : State) (a n : Nat) :
    memReadWords s a n = (List.range n).map fun k => memRead s (a + 8 * k) := by
  induction n generalizing a with
  | zero => rfl
  | succ n ih =>
    have hshift (k : Nat) : a + 8 + 8 * k = a + 8 * (k + 1) := by omega
    simp only [memReadWords, ih, hshift, List.range_succ_eq_map, List.map_cons, List.map_map]
    rfl

theorem memRead_congr {s t : State} {a : Nat} (h : ∀ b, a ≤ b → b < a + 8 → dmemByte t b = dmemByte s b) :
    memRead t a = memRead s a := by
  rw [memRead, memRead, loadLE_congr h]

/-- A word of the sequence is not touched by the ones written after it. -/
theorem memRead_memWriteWords (s : State) (a : Nat) (ws : List Word) {k : Nat} (hk : k < ws.length) :
    memRead (memWriteWords a ws s) (a + 8 * k) = ws[k] := by
  induction ws generalizing s a k with
  | nil => exact absurd hk k.not_lt_zero
  | cons w ws ih =>
    rw [memWriteWords]
    cases k with
    | zero =>
      have hafter := memRead_congr fun b (_ : a ≤ b) (hb : b < a + 8) =>
        dmemByte_memWriteWords_outside (memWrite a w s) (a + 8) b ws (.inl hb)
      exact hafter.trans (memRead_memWrite s a w)
    | succ k =>
      rw [show a + 8 * (k + 1) = a + 8 + 8 * k by omega]
      exact ih (memWrite a w s) (a + 8) (Nat.lt_of_succ_lt_succ hk)

theorem memReadWords_memWriteWords (s : State) (a : Nat) (ws : List Word) :
    memReadWords (memWriteWords a ws s) a ws.length = ws := by
  rw [memReadWords_eq_map]
  refine List.ext_getElem (by simp) fun k _ hk => ?_
  rw [List.getElem_map, List.getElem_range, memRead_memWriteWords s a ws hk]

theorem memReadWords_retire (s : State) (a n : Nat) : memReadWords (retire s) a n = memReadWords s a n := by
  simp [memReadWords_eq_map]

@[simp] theorem readX_memWriteWords (a : Nat) (ws : List Word) (s : State) (k : XReg) :
    readX (memWriteWords a ws s) k = readX s k := by rw [memWriteWords_keeps]; rfl

/-- R291, R295: the words stored, and nothing else but the next instruction. -/
theorem storeResult_retire_memWriteWords (a : Nat) (ws : List Word) (s : State) :
    StoreResult a ws s (retire (memWriteWords a ws s)) := by
  refine ⟨fun k hk => ?words, fun b hb => ?others, ?rest⟩
  case words => exact memRead_memWriteWords s a ws hk
  case others => exact dmemByte_memWriteWords_outside s a b ws hb
  case rest =>
    rw [memWriteWords_keeps]
    refine ⟨fun _ => rfl, rfl, fun _ => rfl, fun _ => rfl, ⟨rfl, rfl⟩, ?control, ?model⟩
    case control => simp [KeepsControl]
    case model => simp [KeepsModel]

theorem completes_of_memWriteWords {i : Instr} {s : State} {a : Nat} {ws : List Word}
    (h : exec i s = .next (retire (memWriteWords a ws s))) : Completes i s (StoreResult a ws s) :=
  ⟨_, h, storeResult_retire_memWriteWords a ws s⟩

/-! ### Alignment and range (R87, R88) -/

section
variable {s : State} {ea : Word} {a n k : Nat}

theorem dmemInRange_iff : dmemInRange s a = true ↔ a + 8 ≤ s.params.dmemBytes := decide_eq_true_iff

theorem dmemInRange_eq_false_iff : dmemInRange s a = false ↔ s.params.dmemBytes < a + 8 :=
  decide_eq_false_iff_not.trans Nat.not_le

theorem wordError_of_misaligned (h : ea.toNat % 8 ≠ 0) : wordError s ea = some ⟨.misalignedAccess, ea⟩ := if_pos h

theorem wordError_of_outOfRange (haligned : ea.toNat % 8 = 0) (h : s.params.dmemBytes < ea.toNat + 8) :
    wordError s ea = some ⟨.accessFault, ea⟩ := by
  simp [wordError, haligned, dmemInRange_eq_false_iff.2 h]

theorem firstOutOfRange_eq_none (h : a + 8 * n ≤ s.params.dmemBytes) : firstOutOfRange s a n = none := by
  have hspec := firstOutOfRange_spec s a n
  cases hfirst : firstOutOfRange s a n with
  | none => rfl
  | some b =>
    rw [hfirst] at hspec
    obtain ⟨k, hk, rfl, hout, _⟩ := hspec
    exact absurd (dmemInRange_eq_false_iff.1 hout) (by omega)

/-- Of two candidates for the first word out of range neither lies before the other. -/
theorem firstOutOfRange_eq_some (hk : k < n) (hout : s.params.dmemBytes < a + 8 * k + 8)
    (hbefore : ∀ j, j < k → a + 8 * j + 8 ≤ s.params.dmemBytes) : firstOutOfRange s a n = some (a + 8 * k) := by
  have hspec := firstOutOfRange_spec s a n
  cases hfirst : firstOutOfRange s a n with
  | none =>
    rw [hfirst] at hspec
    exact absurd (dmemInRange_iff.1 (hspec k hk)) (by omega)
  | some b =>
    rw [hfirst] at hspec
    obtain ⟨k', _, rfl, hout', hbefore'⟩ := hspec
    obtain hlt | rfl | hgt := lt_trichotomy k' k
    · exact absurd (dmemInRange_eq_false_iff.1 hout') (hbefore k' hlt).not_gt
    · rfl
    · exact absurd (dmemInRange_iff.1 (hbefore' k hgt)) (by omega)

/-- R292: LD and SD check their one word alike. -/
theorem completes_or_stops_of_wordError {i : Instr} {P : State → Prop}
    (hstop : ∀ e, wordError s ea = some e → exec i s = raise e s)
    (hpass : wordError s ea = none → Completes i s P) :
    (ea.toNat % 8 ≠ 0 → StopsWith i s ⟨.misalignedAccess, ea⟩) ∧
    (ea.toNat % 8 = 0 → s.params.dmemBytes < ea.toNat + 8 → StopsWith i s ⟨.accessFault, ea⟩) ∧
    (ea.toNat % 8 = 0 → ea.toNat + 8 ≤ s.params.dmemBytes → Completes i s P) :=
  ⟨fun h => stopsWith_of_raise (hstop _ (wordError_of_misaligned h)),
    fun haligned hout => stopsWith_of_raise (hstop _ (wordError_of_outOfRange haligned hout)),
    fun haligned hin => hpass (wordError_none_iff.2 ⟨haligned, hin⟩)⟩

end

/-! ### LD and SD (R290, R291) -/

/-- Settles O44: the word check decides between the two stops and a scalar write of the word read. -/
theorem loadWordResult : Obligations.LoadWordResult := by
  rintro d b imm s _ rfl
  refine ⟨effectiveAddress_eq _ _, hasWord_iWord rfl rfl,
    completes_or_stops_of_wordError (fun e he => ?stop) fun hpass => ?load⟩
  case stop => simp only [exec, execLd, he]
  case load => exact completes_of_writeXNext (by simp only [exec, execLd, hpass])

/-- Settles O45: the word check decides between the two stops and a store of the one word. -/
theorem storeWordResult : Obligations.StoreWordResult := by
  rintro x b imm s _ rfl
  refine ⟨effectiveAddress_eq _ _, hasWord_iWord rfl rfl,
    completes_or_stops_of_wordError (fun e he => ?stop) fun hpass => ?store⟩
  case stop => simp only [exec, execSd, he]
  case store => exact completes_of_memWriteWords (by simp only [exec, execSd, hpass, memWriteWords])

/-! ### The value of an image (R90) -/

theorem ofLimbs_lt {ls : List Nat} (h : ∀ l ∈ ls, l < limbBase) : ofLimbs ls < limbBase ^ ls.length := by
  induction ls with
  | nil => exact Nat.one_pos
  | cons l ls ih =>
    have hl : l < limbBase := h l List.mem_cons_self
    have hrest : ofLimbs ls + 1 ≤ limbBase ^ ls.length := ih fun k hk => h k (List.mem_cons_of_mem l hk)
    calc l + limbBase * ofLimbs ls
      _ < limbBase * (ofLimbs ls + 1) := by rw [Nat.mul_succ]; omega
      _ ≤ limbBase * limbBase ^ ls.length := Nat.mul_le_mul_left _ hrest
      _ = limbBase ^ (ls.length + 1) := (pow_succ' ..).symm

theorem ofLimbs_map_range (f : Nat → Nat) (n : Nat) :
    ofLimbs ((List.range n).map f) = ∑ j ∈ Finset.range n, f j * limbBase ^ j := by
  induction n generalizing f with
  | zero => rfl
  | succ n ih =>
    have hshift : ofLimbs ((List.range n).map (f ∘ Nat.succ)) = ∑ j ∈ Finset.range n, f (j + 1) * limbBase ^ j := ih _
    rw [List.range_succ_eq_map, List.map_cons, List.map_map, ofLimbs_cons, hshift, Finset.sum_range_succ', pow_zero,
      mul_one, add_comm, Finset.mul_sum]
    congr 1
    exact Finset.sum_congr rfl fun j _ => by rw [pow_succ', mul_left_comm]

theorem imageValue_eq (negative : Bool) (ls : List Word) :
    imageValue negative ls = (if negative then -1 else 1) * (ofLimbs (ls.map BitVec.toNat) : Nat) := by
  cases negative <;> simp [imageValue]

/-- R91: normalising an image makes it no longer. -/
theorem len_imageValue_le {negative : Bool} {ls : List Word} (hne : 1 ≤ ls.length)
    (h : ∀ l ∈ ls, l.toNat < limbBase) : len (imageValue negative ls) ≤ ls.length := by
  have habs : (imageValue negative ls).natAbs = ofLimbs (ls.map BitVec.toNat) := by
    cases negative <;> simp [imageValue]
  have hlt := ofLimbs_lt (ls := ls.map BitVec.toNat) (by simpa using h)
  rw [List.length_map] at hlt
  exact len_le_of_natAbs_lt hne (habs.trans_lt hlt)

/-! ### The checks of BLD (R294) -/

theorem firstBadLimb_eq_some {a j : Nat} {ls : List Word} (hj : j < ls.length) (hbad : limbBase ≤ ls[j].toNat)
    (hbefore : ∀ k (hk : k < j), ls[k].toNat < limbBase) : firstBadLimb a ls = some (a + 8 * j) := by
  induction ls generalizing a j with
  | nil => exact absurd hj j.not_lt_zero
  | cons l ls ih =>
    cases j with
    | zero => exact if_pos hbad
    | succ j =>
      have hl : l.toNat < limbBase := hbefore 0 j.succ_pos
      rw [firstBadLimb, if_neg (by omega),
        ih (Nat.lt_of_succ_lt_succ hj) hbad fun k hk => hbefore (k + 1) (Nat.succ_lt_succ hk)]
      congr 1
      omega

/-- R294, checks 2 to 5: the header word of an image at `ea` can be read and announces `n` limbs that a register can
hold. -/
structure HeaderPasses (s : State) (ea : Word) (n : Nat) : Prop where
  word : wordError s ea = none
  reserved : headerReserved (memRead s ea.toNat) = 0
  count : headerCount (memRead s ea.toNat) = n
  nonempty : n ≠ 0
  capacity : n ≤ s.params.lmax

section
variable {s : State} {ea : Word} {n a : Nat}

theorem loadImage_of_wordError {e : Error} (h : wordError s ea = some e) : loadImage s ea = .error e := by
  simp only [loadImage, h]

theorem loadImage_of_malformedHeader (hword : wordError s ea = none) (hcount : headerCount (memRead s ea.toNat) = n)
    (h : headerReserved (memRead s ea.toNat) ≠ 0 ∨ n = 0) : loadImage s ea = .error ⟨.formatError, ea⟩ := by
  simp only [loadImage, hword, hcount, if_pos h]

theorem loadImage_of_overCapacity (hword : wordError s ea = none)
    (hreserved : headerReserved (memRead s ea.toNat) = 0) (hcount : headerCount (memRead s ea.toNat) = n)
    (hne : n ≠ 0) (h : s.params.lmax < n) : loadImage s ea = .error ⟨.capacityError, BitVec.ofNat 64 n⟩ := by
  simp [loadImage, hword, hreserved, hcount, hne, h]

theorem HeaderPasses.loadImage_outOfRange (hheader : HeaderPasses s ea n)
    (h : firstOutOfRange s (ea.toNat + 8) n = some a) :
    loadImage s ea = .error ⟨.accessFault, BitVec.ofNat 64 a⟩ := by
  obtain ⟨hword, hreserved, hcount, hne, hcap⟩ := hheader
  simp [loadImage, hword, hreserved, hcount, hne, hcap.not_gt, h]

theorem HeaderPasses.loadImage_badLimb (hheader : HeaderPasses s ea n)
    (hrange : firstOutOfRange s (ea.toNat + 8) n = none)
    (h : firstBadLimb (ea.toNat + 8) (memReadWords s (ea.toNat + 8) n) = some a) :
    loadImage s ea = .error ⟨.formatError, BitVec.ofNat 64 a⟩ := by
  obtain ⟨hword, hreserved, hcount, hne, hcap⟩ := hheader
  simp [loadImage, hword, hreserved, hcount, hne, hcap.not_gt, hrange, h]

theorem HeaderPasses.loadImage_ok (hheader : HeaderPasses s ea n)
    (hrange : firstOutOfRange s (ea.toNat + 8) n = none)
    (hlimbs : firstBadLimb (ea.toNat + 8) (memReadWords s (ea.toNat + 8) n) = none) :
    loadImage s ea =
      .ok (imageValue (headerNegative (memRead s ea.toNat)) (memReadWords s (ea.toNat + 8) n)) := by
  obtain ⟨hword, hreserved, hcount, hne, hcap⟩ := hheader
  simp [loadImage, hword, hreserved, hcount, hne, hcap.not_gt, hrange, hlimbs]

end

/-! ### BLD (R293) -/

section
variable {s : State} {d : BReg} {b : XReg} {imm : BitVec 16} {ea : Word} {n : Nat}

theorem stopsWith_bld (hea : ea = effectiveAddress (readX s b) imm) {e : Error} (h : loadImage s ea = .error e) :
    StopsWith (.bld d b imm) s e := by
  subst hea
  exact stopsWith_of_raise (by simp only [exec, execBld, h])

/-- An image that passes every check fits, so that its value is written. -/
theorem completes_bld (hea : ea = effectiveAddress (readX s b) imm) (hheader : HeaderPasses s ea n)
    (hrange : ea.toNat + 8 + 8 * n ≤ s.params.dmemBytes)
    (hlimbs : ∀ l ∈ memReadWords s (ea.toNat + 8) n, l.toNat < limbBase) :
    Completes (.bld d b imm) s
      (BigResult d (imageValue (headerNegative (memRead s ea.toNat)) (memReadWords s (ea.toNat + 8) n)) s) := by
  have hload := hheader.loadImage_ok (firstOutOfRange_eq_none hrange) ((firstBadLimb_none_iff _ _).2 hlimbs)
  have hlength := length_memReadWords s (ea.toNat + 8) n
  subst hea
  refine completes_of_writeBig (by simp only [exec, execBld, hload]) ?fits
  case fits =>
    exact (len_imageValue_le (hlength.symm ▸ Nat.pos_of_ne_zero hheader.nonempty) hlimbs).trans
      (hlength.trans_le hheader.capacity)

end

/-- R90: the sign is bit 63. -/
theorem headerNegative_eq (h : Word) : headerNegative h = decide (h.toNat / 2 ^ 63 = 1) :=
  decide_eq_decide.2 (by have := h.isLt; omega)

/-- Settles O46: the limb words read are the terms of the sum. -/
theorem loadImageResult : Obligations.LoadImageResult := by
  rintro d b imm s _ n _ rfl rfl hn haligned hrange hreserved hone hcap hlimbs
  simp only [← limbBase_eq] at hlimbs ⊢
  have hheader : HeaderPasses s (effectiveAddress (readX s b) imm) n :=
    ⟨wordError_none_iff.2 ⟨haligned, by omega⟩, hreserved, hn.symm, Nat.ne_of_gt hone, hcap⟩
  have hload := completes_bld (d := d) rfl hheader hrange (by simpa [memReadWords_eq_map] using hlimbs)
  rw [imageValue_eq, headerNegative_eq, memReadWords_eq_map, List.map_map, ofLimbs_map_range] at hload
  simp only [decide_eq_true_eq] at hload
  exact ⟨hasWord_iWord rfl rfl, hload⟩

/-- Settles O47: one equation of `loadImage` for each check of R294. -/
theorem loadImageErrors : Obligations.LoadImageErrors := by
  rintro d b imm s ea _ n hea rfl hn
  refine ⟨fun hmis => stopsWith_bld hea (loadImage_of_wordError (wordError_of_misaligned hmis)), fun haligned =>
    ⟨fun hout => stopsWith_bld hea (loadImage_of_wordError (wordError_of_outOfRange haligned hout)), fun hin => ?_⟩⟩
  have hword := wordError_none_iff.2 ⟨haligned, hin⟩
  refine ⟨fun hbad => stopsWith_bld hea (loadImage_of_malformedHeader hword hn.symm hbad), fun hreserved hne =>
    ⟨fun hover => stopsWith_bld hea (loadImage_of_overCapacity hword hreserved hn.symm hne hover), fun hcap => ?_⟩⟩
  have hheader : HeaderPasses s ea n := ⟨hword, hreserved, hn.symm, hne, hcap⟩
  refine ⟨fun j hj hout hbefore => ?range, fun hrange j hj hbad hbefore => ?limb⟩
  case range => exact stopsWith_bld hea (hheader.loadImage_outOfRange (firstOutOfRange_eq_some hj hout hbefore))
  case limb =>
    rw [← limbBase_eq] at hbad
    simp only [← limbBase_eq] at hbefore
    exact stopsWith_bld hea (hheader.loadImage_badLimb (firstOutOfRange_eq_none hrange)
      (firstBadLimb_eq_some (by simpa [length_memReadWords] using hj) (by simpa [memReadWords_eq_map] using hbad)
        (by simpa [memReadWords_eq_map] using hbefore)))

/-! ### BST (R295, R296) -/

section
variable {s : State} {ea : Word} {v : Int}

theorem imageError_of_misaligned (h : ea.toNat % 8 ≠ 0) : imageError s ea v = some ⟨.misalignedAccess, ea⟩ := if_pos h

theorem imageError_of_outOfRange {a : Nat} (haligned : ea.toNat % 8 = 0)
    (h : firstOutOfRange s ea.toNat (len v + 1) = some a) :
    imageError s ea v = some ⟨.accessFault, BitVec.ofNat 64 a⟩ := by
  simp [imageError, haligned, h]

theorem imageError_none_iff :
    imageError s ea v = none ↔ ea.toNat % 8 = 0 ∧ ea.toNat + 8 * (len v + 1) ≤ s.params.dmemBytes := by
  constructor
  · intro h
    refine ⟨by_contra fun hmis => ?_, length_imageWords v ▸ le_dmemBytes_of_imageError h⟩
    rw [imageError_of_misaligned hmis] at h
    cases h
  · rintro ⟨haligned, hrange⟩
    simp [imageError, haligned, firstOutOfRange_eq_none hrange]

end

section
variable {s : State} {a : BReg} {b : XReg} {imm : BitVec 16} {ea : Word}

theorem exec_bst_of_error (hea : ea = effectiveAddress (readX s b) imm) {e : Error}
    (h : imageError s ea (readB s a) = some e) : exec (.bst a b imm) s = raise e s := by
  subst hea
  simp only [exec, execBst, h]

theorem exec_bst_of_pass (hea : ea = effectiveAddress (readX s b) imm) (h : imageError s ea (readB s a) = none) :
    exec (.bst a b imm) s = .next (retire (memWriteWords ea.toNat (imageWords (readB s a)) s)) := by
  subst hea
  simp only [exec, execBst, h]

/-- A BST that raises no error passed its checks and stored the image. -/
theorem eq_of_exec_bst {t : State} (hea : ea = effectiveAddress (readX s b) imm) (h : exec (.bst a b imm) s = .next t)
    (ht : t.err = false) :
    imageError s ea (readB s a) = none ∧ t = retire (memWriteWords ea.toNat (imageWords (readB s a)) s) := by
  cases herror : imageError s ea (readB s a) with
  | some e =>
    rw [exec_bst_of_error hea herror, raise_eq] at h
    injection h with h
    subst h
    cases ht
  | none =>
    rw [exec_bst_of_pass hea herror] at h
    injection h with h
    exact ⟨rfl, h.symm⟩

end

theorem imageWords_eq (v : Int) :
    imageWords v = BitVec.ofNat 64 ((if v < 0 then 2 ^ 63 else 0) + len v) ::
      (List.range (len v)).map fun j => BitVec.ofNat 64 (limb v j) := by
  rw [imageWords, imageHeader, limbs, List.map_map]
  rfl

/-- Settles O48: alignment, the first word out of range, or the image stored. -/
theorem storeImageResult : Obligations.StoreImageResult := by
  rintro a b imm s ea _ hea rfl
  rw [← imageWords_eq]
  refine ⟨hasWord_iWord rfl rfl, fun hmis => ?misaligned, fun haligned =>
    ⟨fun j hj hout hbefore => ?range, fun hrange => ?stored⟩⟩
  case misaligned => exact stopsWith_of_raise (exec_bst_of_error hea (imageError_of_misaligned hmis))
  case range =>
    exact stopsWith_of_raise (exec_bst_of_error hea
      (imageError_of_outOfRange haligned (firstOutOfRange_eq_some (Nat.lt_succ_of_le hj) hout hbefore)))
  case stored =>
    exact completes_of_memWriteWords (exec_bst_of_pass hea (imageError_none_iff.2 ⟨haligned, hrange⟩))

/-! ### A canonical image read back (R91, R295) -/

section
variable {v : Int}

theorem toNat_imageHeader (h : len v < 2 ^ 32) : (imageHeader v).toNat = (if v < 0 then 2 ^ 63 else 0) + len v := by
  rw [imageHeader, BitVec.toNat_ofNat]
  exact Nat.mod_eq_of_lt (by split <;> omega)

theorem headerCount_imageHeader (h : len v < 2 ^ 32) : headerCount (imageHeader v) = len v := by
  rw [headerCount, toNat_imageHeader h]
  split <;> omega

theorem headerReserved_imageHeader (h : len v < 2 ^ 32) : headerReserved (imageHeader v) = 0 := by
  rw [headerReserved, toNat_imageHeader h]
  split <;> omega

theorem headerNegative_imageHeader (h : len v < 2 ^ 32) : headerNegative (imageHeader v) = decide (v < 0) := by
  rw [headerNegative, toNat_imageHeader h]
  refine decide_eq_decide.2 ?_
  split <;> omega

end

/-- The limb words of a canonical image hold the limbs themselves. -/
theorem map_toNat_limbWords (v : Int) : ((limbs v).map (BitVec.ofNat 64)).map BitVec.toNat = limbs v := by
  rw [List.map_map]
  refine (List.map_congr_left fun l hl => ?_).trans (List.map_id _)
  have hlt : l < 2 ^ 64 := (lt_limbBase_of_mem_limbs hl).trans (by rw [limbBase_eq]; norm_num)
  exact (BitVec.toNat_ofNat ..).trans (Nat.mod_eq_of_lt hlt)

theorem toNat_lt_of_mem_limbWords {v : Int} {w : Word} (h : w ∈ (limbs v).map (BitVec.ofNat 64)) :
    w.toNat < limbBase :=
  lt_limbBase_of_mem_limbs (map_toNat_limbWords v ▸ List.mem_map_of_mem h)

theorem imageValue_limbs (v : Int) : imageValue (decide (v < 0)) ((limbs v).map (BitVec.ofNat 64)) = v := by
  rw [imageValue_eq, map_toNat_limbWords, ofLimbs_limbs]
  simp only [decide_eq_true_eq]
  split <;> omega

/-- R295: a canonical image in memory loads as the value it was made of. -/
theorem completes_bld_of_imageWords {s : State} {d : BReg} {b : XReg} {imm : BitVec 16} {ea : Word} {v : Int}
    (hea : ea = effectiveAddress (readX s b) imm) (haligned : ea.toNat % 8 = 0)
    (hrange : ea.toNat + 8 * (len v + 1) ≤ s.params.dmemBytes) (hlmax : s.params.lmax < 2 ^ 32)
    (hcap : len v ≤ s.params.lmax) (hwords : memReadWords s ea.toNat (len v + 1) = imageWords v) :
    Completes (.bld d b imm) s (BigResult d v s) := by
  obtain ⟨hhead, hlimbs⟩ := List.cons.inj hwords
  have hlen : len v < 2 ^ 32 := hcap.trans_lt hlmax
  have hheader : HeaderPasses s ea (len v) :=
    ⟨wordError_none_iff.2 ⟨haligned, by omega⟩, hhead ▸ headerReserved_imageHeader hlen,
      hhead ▸ headerCount_imageHeader hlen, Nat.ne_of_gt (one_le_len v), hcap⟩
  have hload := completes_bld (d := d) hea hheader (by omega) (hlimbs ▸ fun _ => toNat_lt_of_mem_limbWords)
  rwa [hhead, hlimbs, headerNegative_imageHeader hlen, imageValue_limbs] at hload

/-- R7: a limb count fits in the 32 bits of a header. -/
theorem Params.lmax_lt {p : Params} (hp : p.legal = true) : p.lmax < 2 ^ 32 := by
  simp only [Params.legal, Bool.and_eq_true, decide_eq_true_eq] at hp
  omega

/-- Settles O49: BST passed its checks, so the image it stored passes those of BLD. -/
theorem storedImageLoadsBack : Obligations.StoredImageLoadsBack := by
  intro a d b imm s t hlegal _ hfits hexec ht
  obtain ⟨hpass, rfl⟩ := eq_of_exec_bst rfl hexec ht
  obtain ⟨haligned, hrange⟩ := imageError_none_iff.1 hpass
  refine completes_bld_of_imageWords (by simp) haligned ?range ?lmax ?cap ?words
  case range => simpa using hrange
  case lmax => simpa using Params.lmax_lt hlegal
  case cap => simpa using hfits
  case words => rw [memReadWords_retire, ← length_imageWords, memReadWords_memWriteWords]

end Sys2Proof.Machine
end

section
/-! PROOFS. The system instructions, 46_scalar_control.md R310 to R313: the CSR numbers read as a table, the two that
the kernel writes, and the stop on every other number. -/

namespace Sys2Proof.Machine

/-! ### Ends of an instruction -/

section
variable {i : Instr} {s : State}

/-- A state that differs only in pc. -/
theorem completes_of_setPc {p : Index} (h : exec i s = .next (setPc p s)) : Completes i s (PcResult p s) :=
  ⟨_, h, rfl, fun _ => rfl, fun _ => rfl, ⟨rfl, rfl⟩, ⟨fun _ => rfl, fun _ => rfl⟩,
    ⟨rfl, rfl, rfl, rfl, rfl, rfl, rfl, rfl, rfl, rfl⟩, ⟨rfl, rfl, rfl, rfl⟩⟩

/-- 60_exceptions.md R363: EINFO of an illegal CSR access is the number of the instruction's own word. -/
theorem stopsWith_of_illegalWord {n : Nat} (hword : HasWord i n) (h : exec i s = raise (illegalWord (encode i)) s) :
    StopsWith i s ⟨.illegalInstruction, BitVec.ofNat 64 n⟩ := by
  rw [illegalWord_eq, hword.1] at h
  exact stopsWith_of_raise h

end

/-! ### HALT and NOP (R310, R311) -/

/-- Settles O16: the effect is `endRun`, and with DONE at 1 the interrupt output is IE. -/
theorem haltEndsTheRun : Obligations.HaltEndsTheRun := by
  intro s
  refine ⟨hasWord_of_toNat_encode rfl rfl, endRun s, rfl, rfl, rfl, rfl, rfl, rfl, rfl, rfl, rfl, ?irq, rfl, rfl, rfl,
    fun _ => rfl, fun _ => rfl, ⟨rfl, rfl⟩, ⟨fun _ => rfl, fun _ => rfl⟩, ⟨rfl, rfl, rfl, rfl⟩⟩
  case irq => simp [irq]

/-- Settles O17: retirement moves pc and nothing else. -/
theorem nopOnlyAdvances : Obligations.NopOnlyAdvances := fun _ =>
  ⟨hasWord_of_toNat_encode rfl rfl, completes_of_setPc rfl⟩

/-! ### Reading CSRs (10_state.md R41 to R52) -/

/-- The values of the eleven CSRs, in the order of their numbers. -/
def csrValues (s : State) : List Word :=
  [0x4D4D4B01, BitVec.ofNat 64 (s.run.toNat + 2 * s.done.toNat + 4 * s.err.toNat + 8 * s.ie.toNat),
    BitVec.ofNat 64 s.cause.toNat, BitVec.ofNat 64 s.epc.toNat, s.einfo, BitVec.ofNat 64 s.c.toNat,
    BitVec.ofNat 64 s.kthresh.toNat, BitVec.ofNat 64 s.params.lmax, BitVec.ofNat 64 s.params.imemWords,
    BitVec.ofNat 64 s.params.dmemBytes, BitVec.ofNat 64 s.startPc.toNat]

theorem csrRead_eq_none {s : State} {n : Nat} (h : 10 < n) : csrRead s n = none := by
  rw [← Option.not_isSome_iff_eq_none, csrRead_isSome_iff]
  omega

/-- The CSR numbers index the table. -/
theorem csrRead_eq_getElem? (s : State) (n : Nat) : csrRead s n = (csrValues s)[n]? := by
  obtain hbeyond | hassigned := Nat.lt_or_ge 10 n
  · rw [csrRead_eq_none hbeyond, List.getElem?_eq_none hbeyond]
  · simp only [csrValues, BitVec.ofNat_toNat]
    interval_cases n <;> rfl

/-- Settles O18: the table gives the value read, and beyond it nothing is read. -/
theorem csrReadResult : Obligations.CsrReadResult := by
  intro d n s hn
  have hword : HasWord (.csrr d n) (iWord 0x03 d 0 n) := hasWord_iWord (decide_eq_true hn) rfl
  refine ⟨hword, fun v hv => ?assigned, fun hbeyond => ?unassigned⟩
  case assigned =>
    have hread : csrRead s n = some v := (csrRead_eq_getElem? s n).trans hv
    exact completes_of_writeXNext (by simp only [exec, execCsrr, hread])
  case unassigned => exact stopsWith_of_illegalWord hword (by simp only [exec, execCsrr, csrRead_eq_none hbeyond])

/-! ### Writing CSRs (R313) -/

theorem csrWrite_eq_none {s : State} {v : Word} {n : Nat} (hflags : n ≠ 5) (hthreshold : n ≠ 6) :
    csrWrite s v n = none := by
  cases h : csrWrite s v n with
  | none => rfl
  | some t =>
    obtain ⟨hn, _⟩ | ⟨hn, _⟩ := csrWrite_cases h
    · exact absurd hn hflags
    · exact absurd hn hthreshold

/-- Settles O19: FLAGS keeps bit 0, KTHRESH the clamped value, and no other number is written. -/
theorem csrWriteResult : Obligations.CsrWriteResult := by
  intro r n s hn
  have hword : HasWord (.csrw r n) (iWord 0x04 r 0 n) := hasWord_iWord (decide_eq_true hn) rfl
  refine ⟨hword, ?flags, ?threshold, fun hflags hthreshold => ?other⟩
  case flags =>
    rintro rfl
    exact completes_of_setAcc_setC (a := s.acc) rfl
  case threshold =>
    rintro rfl
    exact ⟨_, rfl, kthreshClamp_legal _, rfl, rfl, rfl, rfl, rfl, rfl, rfl, rfl, rfl, rfl, fun _ => rfl, fun _ => rfl,
      ⟨rfl, rfl⟩, ⟨fun _ => rfl, fun _ => rfl⟩, ⟨rfl, rfl, rfl, rfl⟩⟩
  case other =>
    exact stopsWith_of_illegalWord hword (by simp only [exec, execCsrw, csrWrite_eq_none hflags hthreshold])

end Sys2Proof.Machine
end

section
/-! PROOFS. The scalar ALU, 46_scalar_control.md R314 to R326: each value as a number taken modulo 2^64, and the words
whose shift amount is out of range. -/

namespace Sys2Proof.Machine

/-! ### Values -/

section
variable (u v : Word) (imm : BitVec 16)

theorem ofInt_toNat_sub_toNat : BitVec.ofInt 64 (u.toNat - v.toNat) = u - v := by
  apply BitVec.eq_of_toNat_eq
  rw [BitVec.toNat_ofInt, BitVec.toNat_sub]
  omega

theorem ofNat_toNat_and_toNat : BitVec.ofNat 64 (u.toNat &&& v.toNat) = u &&& v := by simp [BitVec.ofNat_and]

theorem ofNat_toNat_or_toNat : BitVec.ofNat 64 (u.toNat ||| v.toNat) = u ||| v := by simp [BitVec.ofNat_or]

theorem ofNat_toNat_xor_toNat : BitVec.ofNat 64 (u.toNat ^^^ v.toNat) = u ^^^ v := by simp [BitVec.ofNat_xor]

theorem toNat_zext64 : (zext64 imm).toNat = imm.toNat := BitVec.toNat_setWidth_of_le (by decide)

theorem boolWord_decide (p : Prop) [Decidable p] : boolWord (decide p) = if p then 1 else 0 := by simp [boolWord]

end

/-! ### A shift amount out of range (R117) -/

theorem decode_of_defect {w : InstrWord} {r : OpRow} {why : Illegal} (hrow : findRow (bits w 31 24) = some r)
    (hdefect : r.defect w = some why) : decode w = .illegal why := by
  simp only [decode, hrow, hdefect]

/-- A row of two scalar registers and a shift amount admits every slot, so bits 15:6 are the one thing to check. -/
theorem defect_shiftRow {code : Nat} {mnemonic : String} {build : InstrWord → Instr} {w : InstrWord}
    (h : bits w 15 6 ≠ 0) :
    OpRow.defect ⟨code, mnemonic, .i, .x, .x, .imm, .imm, .sh, build⟩ w = some .shiftRange := by
  simp [OpRow.defect, Slot.notZero, Slot.notBig, h]

theorem bits_shiftHigh_wordI {op a b sh : Nat} (ho : op < 256) (ha : a < 16) (hb : b < 16) (hi : sh < 65536)
    (hsh : 64 ≤ sh) : bits (wordI op a b sh) 15 6 ≠ 0 := by
  rw [bits, toNat_wordI ho ha hb hi]
  omega

/-- R117: in a row of that shape a shift field of 64 or more makes the word illegal. -/
theorem decode_wordI_shiftRange {op sh : Nat} {d a : XReg} {mnemonic : String} {build : InstrWord → Instr}
    (hrow : findRow op = some ⟨op, mnemonic, .i, .x, .x, .imm, .imm, .sh, build⟩) (ho : op < 256) (hsh : 64 ≤ sh)
    (hi : sh < 65536) : decode (wordI op d a sh) = .illegal .shiftRange :=
  decode_of_defect (by rw [bits_op_wordI ho d.isLt a.isLt hi, hrow])
    (defect_shiftRow (bits_shiftHigh_wordI ho d.isLt a.isLt hi hsh))

/-! ### The instructions -/

/-- Settles O20: each of the six ends in a scalar write of the value that the number denotes. -/
theorem registerArithmetic : Obligations.RegisterArithmetic := by
  intro d a b s
  refine ⟨⟨hasWord_rWord rfl rfl, ?add⟩, ⟨hasWord_rWord rfl rfl, ?sub⟩, ⟨hasWord_rWord rfl rfl, ?and⟩,
    ⟨hasWord_rWord rfl rfl, ?or⟩, ⟨hasWord_rWord rfl rfl, ?xor⟩, hasWord_rWord rfl rfl, ?sltu⟩
  case add => exact completes_of_writeXNext rfl
  case sub =>
    rw [ofInt_toNat_sub_toNat]
    exact completes_of_writeXNext rfl
  case and =>
    rw [ofNat_toNat_and_toNat]
    exact completes_of_writeXNext rfl
  case or =>
    rw [ofNat_toNat_or_toNat]
    exact completes_of_writeXNext rfl
  case xor =>
    rw [ofNat_toNat_xor_toNat]
    exact completes_of_writeXNext rfl
  case sltu =>
    rw [← boolWord_decide]
    exact completes_of_writeXNext rfl

/-- Settles O21: each of the four ends in a scalar write, and a shift field of 64 or more fails its row's check. -/
theorem shiftResults : Obligations.ShiftResults := by
  intro d a b sh s
  refine ⟨⟨hasWord_rWord rfl rfl, ?sll⟩, ⟨hasWord_rWord rfl rfl, ?srl⟩, fun hsh => ?immediate, fun hsh hi => ?illegal⟩
  case sll => exact completes_of_writeXNext rfl
  case srl => exact completes_of_writeXNext rfl
  case immediate =>
    have hok : shiftOk sh = true := decide_eq_true hsh
    exact ⟨⟨hasWord_iWord hok rfl, completes_of_writeXNext rfl⟩, hasWord_iWord hok rfl, completes_of_writeXNext rfl⟩
  case illegal =>
    exact ⟨decode_wordI_shiftRange rfl (by decide) hsh hi, decode_wordI_shiftRange rfl (by decide) hsh hi⟩

/-- Settles O22: ADDI adds as an address is formed, and the zero extension keeps the number of the immediate. -/
theorem immediateArithmetic : Obligations.ImmediateArithmetic := by
  intro d a imm s
  refine ⟨⟨hasWord_iWord rfl rfl, ?addi⟩, ⟨hasWord_iWord rfl rfl, ?ori⟩, hasWord_iWord rfl rfl, ?andi⟩
  case addi =>
    rw [← effectiveAddress_eq]
    exact completes_of_writeXNext rfl
  case ori =>
    rw [← toNat_zext64, ofNat_toNat_or_toNat]
    exact completes_of_writeXNext rfl
  case andi =>
    rw [← toNat_zext64, ofNat_toNat_and_toNat]
    exact completes_of_writeXNext rfl

end Sys2Proof.Machine
end

section
/-! PROOFS. Control transfer, 46_scalar_control.md R327 to R335: the word of a format J instruction, the targets as sums
modulo 2^32, and the shapes of a jump and of a branch. -/

namespace Sys2Proof.Machine

/-! ### Words (R111, R115) -/

/-- The bounds of the fields are closed at the call, where the opcode is a numeral and the slot is a register. -/
theorem hasWord_jWord {i : Instr} {op a imm : Nat} (hwf : i.wellFormed = true) (hword : encode i = wordJ op a imm)
    (ho : op < 256 := by omega) (ha : a < 16 := by omega) (hi : imm < 1048576 := by omega) :
    HasWord i (jWord op a imm) :=
  hasWord_of_toNat_encode hwf (by rw [hword, toNat_wordJ ho ha hi, jWord])

/-! ### Targets and the link (R327) -/

/-- A target relative to pc is the sum of the index and the signed offset, modulo 2^32. -/
theorem add_signExtend_eq {n : Nat} (pc : Index) (off : BitVec n) :
    pc + off.signExtend 32 = BitVec.ofInt 32 (pc.toNat + off.toInt) := by
  rw [BitVec.signExtend, BitVec.ofInt_add, BitVec.ofInt_natCast, BitVec.ofNat_toNat, BitVec.setWidth_eq]

theorem branchTarget_eq (pc : Index) (off : BitVec 16) :
    branchTarget pc off = BitVec.ofInt 32 (pc.toNat + off.toInt) := add_signExtend_eq pc off

theorem jumpTarget_eq (pc : Index) (off : BitVec 20) : jumpTarget pc off = BitVec.ofInt 32 (pc.toNat + off.toInt) :=
  add_signExtend_eq pc off

/-- Reducing modulo 2^64 first loses nothing modulo 2^32. -/
theorem low32_ofInt (v : Int) : low32 (BitVec.ofInt 64 v) = BitVec.ofInt 32 v := by
  apply BitVec.eq_of_toNat_eq
  rw [low32, BitVec.toNat_setWidth, BitVec.toNat_ofInt, BitVec.toNat_ofInt]
  omega

theorem jumpRegisterTarget_eq (base : Word) (imm : BitVec 16) :
    jumpRegisterTarget base imm = BitVec.ofInt 32 (base.toNat + imm.toInt) := by
  rw [← low32_ofInt, ← effectiveAddress_eq]
  rfl

theorem linkValue_eq (pc : Index) : linkValue pc = BitVec.ofNat 64 ((pc.toNat + 1) % 2 ^ 32) := by
  rw [linkValue, zextIndex, ← BitVec.ofNat_toNat]
  rfl

/-! ### The shapes of a result -/

section
variable {i : Instr} {s : State}

/-- R328, R329: the return index in the link register, x0 discarding it, and pc at the target. -/
theorem completes_of_link {d : XReg} {p : Index} (h : exec i s = .next (setPc p (writeX d (linkValue s.pc) s))) :
    Completes i s (LinkResult d p s) := by
  refine ⟨_, h, fun k => ?_, rfl, fun _ => rfl, ⟨rfl, rfl⟩, ⟨fun _ => rfl, fun _ => rfl⟩, ?control, ?model⟩
  · rw [readX_setPc, readX_writeX, linkValue_eq]
  case control => simp [KeepsControl]
  case model => simp [KeepsModel]

/-- R330 to R335: a branch goes where its condition sends it. -/
theorem completes_of_branch {off : BitVec 16} {target : Index} {p q : Prop} [Decidable p] [Decidable q]
    (htarget : target = BitVec.ofInt 32 (s.pc.toNat + off.toInt)) (hpq : p ↔ q)
    (h : exec i s = branch (decide p) off s) : Completes i s (PcResult (if q then target else s.pc + 1) s) := by
  rw [← branchTarget_eq] at htarget
  simp only [htarget, ← hpq]
  exact completes_of_setPc (by rw [h, branch]; simp only [decide_eq_true_eq])

end

/-! ### The instructions -/

/-- Settles O23: both end in a link, and the register of JALR is read in the state before it. -/
theorem jumpsLinkAndGo : Obligations.JumpsLinkAndGo := by
  intro d b off imm s
  refine ⟨⟨hasWord_jWord rfl rfl, ?jal⟩, hasWord_iWord rfl rfl, ?jalr⟩
  case jal =>
    rw [← jumpTarget_eq]
    exact completes_of_link rfl
  case jalr =>
    rw [← jumpRegisterTarget_eq]
    exact completes_of_link rfl

/-- Settles O24: two words are equal when their numbers are, and the other conditions compare the numbers themselves. -/
theorem branchResults : Obligations.BranchResults := by
  intro a b off s target htarget
  refine ⟨⟨hasWord_iWord rfl rfl, ?beq⟩, ⟨hasWord_iWord rfl rfl, ?bne⟩, ⟨hasWord_iWord rfl rfl, ?blt⟩,
    ⟨hasWord_iWord rfl rfl, ?bge⟩, ⟨hasWord_iWord rfl rfl, ?bltu⟩, hasWord_iWord rfl rfl, ?bgeu⟩
  case beq => exact completes_of_branch htarget BitVec.toNat_inj.symm rfl
  case bne => exact completes_of_branch htarget BitVec.toNat_inj.symm.not rfl
  case blt => exact completes_of_branch htarget Iff.rfl rfl
  case bge => exact completes_of_branch htarget Iff.rfl rfl
  case bltu => exact completes_of_branch htarget Iff.rfl rfl
  case bgeu => exact completes_of_branch htarget Iff.rfl rfl

end Sys2Proof.Machine
end

section
/-! PROOFS. The causes of each instruction, 60_exceptions.md R362: one rule for each shared shape of an instruction's
end, the causes of each check, and the results that the invariant keeps below the capacity. -/

namespace Sys2Proof.Machine

/-! ### The shared shapes -/

/-- A result is a next state that keeps ERR, or the error entry with one of these causes. -/
def RaisesOnly (causes : List ErrorCause) (s : State) (r : Result) : Prop :=
  ∃ t, r = .next t ∧ (t.err = s.err ∨ ∃ e : Error, e.cause ∈ causes ∧ t = errorEntry e s)

section
variable {causes : List ErrorCause} {s t : State} {e : Error} {d : BReg} {v : Int}

theorem raisesOnly_of_err_eq (h : t.err = s.err) : RaisesOnly causes s (.next t) := ⟨t, rfl, .inl h⟩

theorem raisesOnly_raise (h : e.cause ∈ causes) : RaisesOnly causes s (raise e s) := ⟨_, rfl, .inr ⟨e, h, rfl⟩⟩

theorem raisesOnly_writeXNext (x : XReg) (w : Word) : RaisesOnly causes s (writeXNext x w s) :=
  raisesOnly_of_err_eq rfl

theorem raisesOnly_setC_setAcc (a : Acc) (c : Bool) : RaisesOnly causes s (.next (retire (setC c (setAcc a s)))) :=
  raisesOnly_of_err_eq rfl

theorem raisesOnly_writeXNext_setAcc (x : XReg) (w : Word) (a : Acc) :
    RaisesOnly causes s (writeXNext x w (setAcc a s)) := raisesOnly_of_err_eq rfl

theorem raisesOnly_branch (taken : Bool) (off : BitVec 16) : RaisesOnly causes s (branch taken off s) :=
  raisesOnly_of_err_eq rfl

theorem raisesOnly_writeBig_of_fits (h : len v ≤ s.params.lmax) : RaisesOnly causes s (writeBig d v s) := by
  rw [writeBig_fits h]
  exact raisesOnly_of_err_eq rfl

/-- 41_bigint.md R180: where the value may be too long, the cause is CapacityError. -/
theorem raisesOnly_writeBig (h : .capacityError ∈ causes) : RaisesOnly causes s (writeBig d v s) := by
  by_cases hfits : len v ≤ s.params.lmax
  · exact raisesOnly_writeBig_of_fits hfits
  · rw [writeBig_over (by omega)]
    exact raisesOnly_raise (e := ⟨.capacityError, _⟩) h

/-- Where every value that passes the check fits, only the check raises. -/
theorem raisesOnly_writeBigUnless {check : Option Error} (hcheck : ∀ e, check = some e → e.cause ∈ causes)
    (hfits : check = none → len v ≤ s.params.lmax) : RaisesOnly causes s (writeBigUnless check d (fun _ => v) s) := by
  cases hc : check with
  | none => exact raisesOnly_writeBig_of_fits (hfits hc)
  | some e => exact raisesOnly_raise (hcheck e hc)

theorem RaisesOnly.errorStop {r : Result} (h : RaisesOnly causes s r) (hs : s.err = false) (hr : r = .next t)
    (ht : t.err = true) : ∃ e : Error, e.cause ∈ causes ∧ ErrorStop e s t := by
  obtain ⟨u, hu, hcase⟩ := h
  obtain rfl : u = t := by rw [hu] at hr; injection hr
  obtain herr | ⟨e, he, rfl⟩ := hcase
  · simp [herr, hs] at ht
  · exact ⟨e, he, errorEntry_errorStop e s⟩

end

/-! ### The causes of each check -/

section
variable {s : State} {m n : Int} {e : Error} {ea : Word}

theorem cause_of_divisorError (h : divisorError m = some e) : e.cause ∈ [.divisionByZero] := by
  rw [divisorError] at h
  split at h
  · cases h; simp
  · cases h

theorem cause_of_modulusError (h : modulusError m = some e) : e.cause ∈ [.divisionByZero, .domainError] := by
  rw [modulusError] at h
  split at h
  · cases h; simp
  · split at h
    · cases h; simp
    · cases h

theorem cause_of_exponentError (h : exponentError n m = some e) : e.cause ∈ [.divisionByZero, .domainError] := by
  rw [exponentError] at h
  split at h
  · next he => exact cause_of_modulusError (he.trans h)
  · split at h
    · cases h; simp
    · cases h

theorem cause_of_montgomeryError (h : montgomeryError m = some e) :
    e.cause ∈ [.divisionByZero, .domainError] := by
  rw [montgomeryError] at h
  split at h
  · next he => exact cause_of_modulusError (he.trans h)
  · split at h
    · cases h; simp
    · cases h

theorem cause_of_wordError (h : wordError s ea = some e) : e.cause ∈ [.misalignedAccess, .accessFault] := by
  rw [wordError] at h
  split at h
  · cases h; simp
  · split at h
    · cases h; simp
    · cases h

theorem cause_of_imageError (h : imageError s ea n = some e) : e.cause ∈ [.misalignedAccess, .accessFault] := by
  rw [imageError] at h
  split at h
  · cases h; simp
  · split at h
    · cases h; simp
    · cases h

theorem cause_of_loadImage (h : loadImage s ea = .error e) :
    e.cause ∈ [.misalignedAccess, .accessFault, .formatError, .capacityError] := by
  simpa using loadImage_error h

end

/-! ### The results that fit (41_bigint.md R184, R185, 43_modular.md R240, R250) -/

section
variable {s : State} (h : Inv s)
include h

/-- 00_scope.md R7: LMAX is at least 4, so that a value of 64 bits fits. -/
theorem Inv.len_toInt_le (w : Word) : len w.toInt ≤ s.params.lmax := by
  have hlegal := h.legal
  simp only [Params.legal, Bool.and_eq_true, decide_eq_true_eq] at hlegal
  exact (len_toInt_le_three w).trans (by omega)

theorem Inv.len_neg_le (a : BReg) : len (-readB s a) ≤ s.params.lmax := (len_neg _).trans_le (h.bigs a)

theorem Inv.len_tdiv_le (a b : BReg) : len (tdiv (readB s a) (readB s b)) ≤ s.params.lmax := by
  rw [tdiv_eq]
  exact (Machine.len_tdiv_le _ _).trans (h.bigs a)

theorem Inv.len_trem_le (a b : BReg) : len (trem (readB s a) (readB s b)) ≤ s.params.lmax := by
  rw [trem_eq]
  exact (len_tmod_le _ _).trans (h.bigs a)

/-- A residue is no longer than its modulus, which a register holds. -/
theorem Inv.len_mathMod_le (v : Int) {m : BReg} (hm : 0 < readB s m) :
    len (mathMod v (readB s m)) ≤ s.params.lmax := by
  rw [mathMod_eq_emod v hm]
  exact (len_emod_le v hm).trans (h.bigs m)

theorem Inv.len_expMod_le (v : Int) (n : Nat) {m : BReg} (hm : 0 < readB s m) :
    len (expMod v n (readB s m)) ≤ s.params.lmax := by
  obtain rfl | hn := Nat.eq_zero_or_pos n
  · rw [expMod_zero]
    exact (len_one_le_len _).trans (h.bigs m)
  · rw [expMod_eq_pow_emod v hm hn]
    exact (len_emod_le _ hm).trans (h.bigs m)

end

/-! ### The instructions with shapes of their own -/

section
variable (s : State)

theorem raisesOnly_execCsrr (d : XReg) (n : Nat) : RaisesOnly [.illegalInstruction] s (execCsrr d n s) := by
  rw [execCsrr]
  split
  · exact raisesOnly_writeXNext ..
  · exact raisesOnly_raise (List.mem_singleton_self _)

theorem raisesOnly_execCsrw (r : XReg) (n : Nat) : RaisesOnly [.illegalInstruction] s (execCsrw r n s) := by
  rw [execCsrw]
  split
  · next t ht =>
    obtain ⟨_, rfl⟩ | ⟨_, rfl⟩ := csrWrite_cases ht
    · exact raisesOnly_of_err_eq rfl
    · exact raisesOnly_of_err_eq rfl
  · exact raisesOnly_raise (List.mem_singleton_self _)

theorem raisesOnly_execLd (d b : XReg) (off : BitVec 16) :
    RaisesOnly [.misalignedAccess, .accessFault] s (execLd d b off s) := by
  rw [execLd]
  split
  · next he => exact raisesOnly_raise (cause_of_wordError he)
  · exact raisesOnly_writeXNext ..

theorem raisesOnly_execSd (a b : XReg) (off : BitVec 16) :
    RaisesOnly [.misalignedAccess, .accessFault] s (execSd a b off s) := by
  rw [execSd]
  split
  · next he => exact raisesOnly_raise (cause_of_wordError he)
  · exact raisesOnly_of_err_eq rfl

theorem raisesOnly_execBld (d : BReg) (b : XReg) (off : BitVec 16) :
    RaisesOnly [.misalignedAccess, .accessFault, .formatError, .capacityError] s (execBld d b off s) := by
  rw [execBld]
  split
  · next he => exact raisesOnly_raise (cause_of_loadImage he)
  · exact raisesOnly_writeBig (by decide)

theorem raisesOnly_execBst (a : BReg) (b : XReg) (off : BitVec 16) :
    RaisesOnly [.misalignedAccess, .accessFault] s (execBst a b off s) := by
  rw [execBst]
  split
  · next he => exact raisesOnly_raise (cause_of_imageError he)
  · exact raisesOnly_of_err_eq (memWriteWords_err ..)

end

/-! ### Every instruction -/

/-- 60_exceptions.md R362, row by row. -/
theorem raisesOnly_exec (i : Instr) {s : State} (h : Inv s) : RaisesOnly (causesOf i) s (exec i s) := by
  cases i
  case halt | nop | jal | jalr => exact raisesOnly_of_err_eq rfl
  case csrr => exact raisesOnly_execCsrr ..
  case csrw => exact raisesOnly_execCsrw ..
  case beq | bne | blt | bge | bltu | bgeu => exact raisesOnly_branch ..
  case add | sub | and | or | xor | sll | srl | sltu | addi | ori | slli | srli | andi =>
    exact raisesOnly_writeXNext ..
  case mullo | mulhu | acclo | acchi | bcmp | blen | blimb | bsgn => exact raisesOnly_writeXNext ..
  case mul128 | mac128 | accadd | accset => exact raisesOnly_setC_setAcc ..
  case accnorm | accpop => exact raisesOnly_writeXNext_setAcc ..
  case badd | bsub | bmul | kmul => exact raisesOnly_writeBig (List.mem_singleton_self _)
  case bneg d a => exact raisesOnly_writeBig_of_fits (h.len_neg_le a)
  case bmov d a => exact raisesOnly_writeBig_of_fits (h.bigs a)
  case bfromx | bli => exact raisesOnly_writeBig_of_fits (h.len_toInt_le _)
  case bdiv d a b => exact raisesOnly_writeBigUnless (fun _ => cause_of_divisorError) fun _ => h.len_tdiv_le a b
  case brem d a b => exact raisesOnly_writeBigUnless (fun _ => cause_of_divisorError) fun _ => h.len_trem_le a b
  case mmod | madd | msub | mmul | msqr =>
    exact raisesOnly_writeBigUnless (fun _ => cause_of_modulusError) fun hnone =>
      h.len_mathMod_le _ (modulusError_none_iff.1 hnone)
  case mexp =>
    exact raisesOnly_writeBigUnless (fun _ => cause_of_exponentError) fun hnone =>
      h.len_expMod_le _ _ (exponentError_none_iff.1 hnone).1
  case mredc | mmont | mtom =>
    exact raisesOnly_writeBigUnless (fun _ => cause_of_montgomeryError) fun hnone =>
      h.len_mathMod_le _ (montgomeryError_none_iff.1 hnone).1
  case ld => exact raisesOnly_execLd ..
  case sd => exact raisesOnly_execSd ..
  case bld => exact raisesOnly_execBld ..
  case bst => exact raisesOnly_execBst ..

/-- Settles O10: where the invariant keeps a result below the capacity only a check raises, and with ERR at 0 before,
ERR at 1 is the error entry. -/
theorem causesAreThoseOfTheTable : Obligations.CausesAreThoseOfTheTable := fun i _ _ h hs hexec ht =>
  (raisesOnly_exec i h).errorStop hs hexec ht

end Sys2Proof.Machine
end

section
/-! PROOFS. The turns of a step and the two resets: every step answers a next state, each agent's turn does what the
agent does (log 6), a placed instruction runs next (log 11), and the reset values of 70_reset_and_hazards.md R401. -/

namespace Sys2Proof.Machine

/-! ### Every step answers (logs 6, 7 and 24) -/

theorem exists_exec_eq_next (i : Instr) (s : State) : ∃ t, exec i s = .next t :=
  (exec_answers i s).imp fun _ => And.left

theorem exists_kernelStep_eq_next (s : State) : ∃ t, kernelStep s = .next t := by
  cases hrun : s.run with
  | false => exact ⟨_, kernelStep_idle hrun⟩
  | true =>
    cases hfetch : fetch s with
    | none => exact ⟨_, kernelStep_fetchFault hrun hfetch⟩
    | some w =>
      cases hdec : decode w with
      | illegal why => exact ⟨_, kernelStep_illegal hrun hfetch hdec⟩
      | instr i =>
        rw [kernelStep_exec hrun hfetch hdec]
        exact exists_exec_eq_next i s

/-- Settles O12: an instruction has an effect, and the agent whose turn it is answers. -/
theorem everyStepAnswersANextState : Obligations.EveryStepAnswersANextState := by
  refine ⟨exists_exec_eq_next, fun s => ?_⟩
  match hturns : s.turns with
  | [] => rw [step_nil hturns]; exact exists_kernelStep_eq_next s
  | .kernel :: rest => rw [step_kernel hturns]; exact exists_kernelStep_eq_next _
  | .bus op :: rest => exact ⟨_, step_bus hturns⟩
  | .powerOn :: rest => exact ⟨_, step_powerOn hturns⟩

/-- Settles O8: with RUN at 0 the kernel's turn only leaves the list. -/
theorem idleKernelKeepsState : Obligations.IdleKernelKeepsState := by
  intro s hidle
  refine ⟨fun hturns => ?_, fun rest hturns => ?_⟩
  · rw [step_nil hturns, kernelStep_idle hidle]
  · rw [step_kernel hturns]
    exact kernelStep_idle (s := { s with turns := rest }) hidle

/-! ### A placed instruction (log 11) -/

section
variable (s : State) (i j : Nat) (w : InstrWord)

/-- 20_memory.md R103: a stored word reads back. -/
theorem imemRead_imemWrite : imemRead (imemWrite i w s) i = w := by
  have hbytes (k : Nat) (hk : k < 4) :
      imemByte (imemWrite i w s) (4 * i + k) = BitVec.ofNat 8 (w.toNat / 256 ^ k) := by
    rw [imemByte_imemWrite, if_pos (by omega), Nat.add_sub_cancel_left]
  have hfits : w.toNat % 256 ^ 4 = w.toNat := Nat.mod_eq_of_lt w.isLt
  rw [imemRead, loadLE_bytes _ _ 4 w.toNat hbytes, hfits, BitVec.ofNat_toNat, BitVec.setWidth_eq]

/-- 20_memory.md R103: words have no byte in common. -/
theorem imemRead_imemWrite_of_ne (h : j ≠ i) : imemRead (imemWrite i w s) j = imemRead s j := by
  have hbytes (b : Nat) (hlow : 4 * j ≤ b) (hhigh : b < 4 * j + 4) :
      imemByte (imemWrite i w s) b = imemByte s b := by
    rw [imemByte_imemWrite, if_neg (by omega)]
  rw [imemRead, loadLE_congr hbytes, imemRead]

end

theorem tableWord_toNat (w : InstrWord) : tableWord 32 w.toNat = w := by
  rw [tableWord, Nat.mod_eq_of_lt w.isLt, BitVec.ofNat_toNat, BitVec.setWidth_eq]

theorem placeInstruction_of_idle {s : State} (h : s.run = false) (w : InstrWord) :
    placeInstruction w s = { imemWrite s.startPc.toNat w (go s) with turns := [] } := by
  simp [placeInstruction, h]

/-- Settles O59: the machine is started at START_PC, where the word now stands and decodes as the instruction. -/
theorem placedInstructionRunsNext : Obligations.PlacedInstructionRunsNext := by
  intro s i hidle hpc hwf
  rw [State.withFetchWord, tableWord_toNat, placeInstruction_of_idle hidle]
  have hfetch : fetch { imemWrite s.startPc.toNat (encode i) (go s) with turns := [] } = some (encode i) :=
    (if_pos hpc).trans (congrArg some (imemRead_imemWrite ..))
  rw [step_nil rfl, kernelStep_exec rfl hfetch (decodeEncodeRoundTrip i hwf)]

/-! ### Reset values (R401) -/

section
variable {s : State}

theorem readX_eq_zero (h : s.x = Vector.replicate 16 0) (k : XReg) : readX s k = 0 := by simp [readX, h]

theorem readB_eq_zero (h : s.b = Vector.replicate 8 0) (j : BReg) : readB s j = 0 := by simp [readB, h]

end

/-- Settles O15: each value is that of `State.resetOf`, and no byte of memory is written. -/
theorem resetValues : Obligations.ResetValues := by
  rintro p _ rfl
  exact ⟨readX_eq_zero rfl, rfl, rfl, readB_eq_zero rfl, rfl, rfl, rfl, rfl, rfl, rfl, rfl, rfl, rfl, rfl, rfl, rfl,
    fun _ => rfl, fun _ => rfl⟩

/-- Settles O14: the default parameters are legal. -/
theorem resetHasInvariant : Obligations.ResetHasInvariant := ⟨fun _ => inv_resetOf, inv_resetOf (by decide)⟩

/-! ### The turns of the other agents (log 6) -/

/-- What the host reads does not depend on the turns to come. -/
theorem busRead_turns (s : State) (turns : List Turn) (addr width : Nat) :
    busRead { s with turns := turns } addr width = busRead s addr width := rfl

theorem busAccess_read {s : State} {addr width : Nat} {v : Word} (h : busRead s addr width = some v) :
    busAccess (.read addr width) s = { s with hostRead := v } := by
  simp only [busAccess, h]

/-- Settles O58: a power-on reset is `State.resetOf` beside the model's own fields. -/
theorem otherAgentsTakeTheirTurns : Obligations.OtherAgentsTakeTheirTurns := by
  intro s rest
  refine ⟨fun addr width v hturns => step_bus hturns, fun addr width v hturns hread => ?read, fun hturns => ?powerOn⟩
  case read => rw [step_bus hturns, busAccess_read (by rwa [busRead_turns])]
  case powerOn =>
    exact ⟨_, step_powerOn hturns, rfl, rfl, readX_eq_zero rfl, rfl, rfl, readB_eq_zero rfl, rfl, rfl, rfl, rfl, rfl,
      rfl, rfl, rfl, rfl, rfl, rfl, fun _ => rfl, fun _ => rfl⟩

end Sys2Proof.Machine
end

section
/-! PROOFS. The host interface, 60_exceptions.md R375 to R379: each register's offset, what an access of a register or
of the IMEM window does, the commands of CTRL, and what a run lets through. -/

namespace Sys2Proof.Machine

/-! ### The register map (R375) -/

/-- The offset of a register, which `hostRegAt` reads back (`hostRegAt_eq_some_iff`). -/
def HostReg.offset : HostReg → Nat
  | .ctrl => 0x0000
  | .status => 0x0008
  | .cause => 0x0010
  | .epc => 0x0018
  | .einfo => 0x0020
  | .startPc => 0x0028
  | .kthresh => 0x0030
  | .id => 0x0038
  | .lmax => 0x0040
  | .imemw => 0x0048
  | .dmemb => 0x0050
  | .flags => 0x0058
  | .pc => 0x0060
  | .x i => 0x0100 + 8 * i.val
  | .accLo => 0x0200
  | .accHi => 0x0208

theorem HostReg.offset_lt (r : HostReg) : r.offset < 0x10000 := by
  cases r
  case x i => rw [offset]; omega
  all_goals exact of_decide_eq_true rfl

theorem HostReg.offset_mod_eight (r : HostReg) : r.offset % 8 = 0 := by
  cases r
  case x i => rw [offset]; omega
  all_goals rfl

theorem hostRegAt_x : ∀ i : XReg, hostRegAt (0x100 + 8 * i.val) = some (.x i) := by decide

theorem hostRegAt_eq_some_iff {off : Nat} {r : HostReg} : hostRegAt off = some r ↔ off = r.offset := by
  constructor
  · intro h
    unfold hostRegAt at h
    split at h
    case h_16 =>
      split at h
      · next hx =>
        cases h
        simp only [HostReg.offset, Fin.ofNat]
        omega
      · cases h
    all_goals cases h; rfl
  · rintro rfl
    cases r
    case x i => exact hostRegAt_x i
    all_goals rfl

/-- R375: the access of 64 bits at its offset is the one that reaches a register. -/
theorem hostTarget_eq_reg_iff {p : Params} {off width : Nat} {r : HostReg} :
    hostTarget p off width = .reg r ↔ width = 64 ∧ off = r.offset := by
  rw [← hostRegAt_eq_some_iff]
  constructor
  · intro h
    unfold hostTarget at h
    split at h
    · split at h <;> cases h
    · split at h
      · split at h <;> cases h
      · split at h
        · next haccess =>
          split at h
          · next hr => cases h; exact ⟨haccess.1, hr⟩
          · cases h
        · cases h
  · rintro ⟨rfl, hr⟩
    obtain rfl := hostRegAt_eq_some_iff.1 hr
    have hlt := r.offset_lt
    rw [hostTarget, if_neg (by omega), if_neg (by omega), if_pos ⟨rfl, r.offset_mod_eight⟩, hr]

/-- Outside the two windows an access that reaches no register reaches nothing. -/
theorem hostTarget_eq_nothing {p : Params} {off width : Nat} (hout : off < 0x10000 ∨ 0x20000 ≤ off ∧ off < 0x100000)
    (hnone : ∀ r : HostReg, ¬ (width = 64 ∧ off = r.offset)) : hostTarget p off width = .nothing := by
  rw [hostTarget, if_neg (by omega), if_neg (by omega)]
  split
  · next haccess =>
    split
    · next r hr => exact absurd ⟨haccess.1, hostRegAt_eq_some_iff.1 hr⟩ (hnone r)
    · rfl
  · rfl

/-- The number an idle host reads in a register, which `hostRegValue` holds (`hostRegValue_eq`). -/
def HostReg.number (s : State) : HostReg → Nat
  | .ctrl => 0
  | .status => s.run.toNat + 2 * s.done.toNat + 4 * s.err.toNat + 8 * s.ie.toNat
  | .cause => s.cause.toNat
  | .epc => s.epc.toNat
  | .einfo => s.einfo.toNat
  | .startPc => s.startPc.toNat
  | .kthresh => s.kthresh.toNat
  | .id => 0x4D4D4B01
  | .lmax => s.params.lmax
  | .imemw => s.params.imemWords
  | .dmemb => s.params.dmemBytes
  | .flags => s.c.toNat
  | .pc => s.pc.toNat
  | .x i => (readX s i).toNat
  | .accLo => s.acc.toNat % 2 ^ 64
  | .accHi => s.acc.toNat / 2 ^ 64

theorem hostRegValue_eq (s : State) (r : HostReg) : hostRegValue s r = BitVec.ofNat 64 (r.number s) := by
  cases r
  case cause | epc | einfo | startPc | kthresh | pc | x =>
    simp only [hostRegValue, HostReg.number, zextIndex, BitVec.ofNat_toNat, BitVec.setWidth_eq]
  case ctrl | status | id | lmax | imemw | dmemb | flags | accLo | accHi => rfl

/-- The registers in the order of the map. -/
def HostReg.all : List HostReg :=
  .ctrl :: .status :: .cause :: .epc :: .einfo :: .startPc :: .kthresh :: .id :: .lmax :: .imemw :: .dmemb :: .flags ::
    .pc :: .accLo :: .accHi :: (List.finRange 16).map .x

theorem HostReg.mem_all (r : HostReg) : r ∈ all := by
  cases r <;> simp [all]

theorem registerMap_eq_map (s : State) : registerMap s = HostReg.all.map fun r => (r.offset, r.number s) := rfl

/-- The map lists every register, at its offset and with its number. -/
theorem mem_registerMap_iff {s : State} {off n : Nat} :
    (off, n) ∈ registerMap s ↔ ∃ r : HostReg, off = r.offset ∧ n = r.number s := by
  simp only [registerMap_eq_map, List.mem_map, Prod.mk.injEq]
  exact exists_congr fun r => ⟨fun ⟨_, hoff, hn⟩ => ⟨hoff.symm, hn.symm⟩,
    fun ⟨hoff, hn⟩ => ⟨r.mem_all, hoff.symm, hn.symm⟩⟩

/-! ### Accesses of a register (R375, R376) -/

section
variable {s : State} {p addr off width : Nat} {r : HostReg}

theorem blockOffset_eq_some (h : blockOffset s.params addr = some off) : addr = s.params.base + off := by
  rw [blockOffset] at h
  split at h
  · cases h; omega
  · cases h

theorem busRead_reg (hoff : blockOffset s.params addr = some off) (ht : hostTarget s.params off width = .reg r) :
    busRead s addr width = some (if s.run && !r.readableInRun then 0 else hostRegValue s r) := by
  simp only [busRead, hoff, ht]

theorem busWrite_reg (hoff : blockOffset s.params addr = some off) (ht : hostTarget s.params off width = .reg r)
    (v : Word) : busWrite addr width v s = if s.run && !r.writableInRun then s else hostRegWrite r v s := by
  simp only [busWrite, hoff, ht]

theorem busRead_imemWord {i : Nat} (hoff : blockOffset s.params addr = some off)
    (ht : hostTarget s.params off width = .imemWord i) :
    busRead s addr width = some (if s.run then 0 else (imemRead s i).setWidth 64) := by
  simp only [busRead, hoff, ht]

theorem busWrite_imemWord {i : Nat} (hoff : blockOffset s.params addr = some off)
    (ht : hostTarget s.params off width = .imemWord i) (v : Word) :
    busWrite addr width v s = if s.run then s else imemWrite i (v.setWidth 32) s := by
  simp only [busWrite, hoff, ht]

/-- An access at the offset of a register reaches it. -/
theorem access_offset (s : State) (r : HostReg) : blockOffset s.params (s.params.base + r.offset) = some r.offset ∧
    hostTarget s.params r.offset 64 = .reg r :=
  ⟨blockOffset_base_add _ (r.offset_lt.trans (by decide)), hostTarget_eq_reg_iff.2 ⟨rfl, rfl⟩⟩

theorem busRead_offset (r : HostReg) (hp : p = s.params.base) (h : s.run = false ∨ r.readableInRun = true) :
    busRead s (p + r.offset) 64 = some (hostRegValue s r) := by
  subst hp
  obtain ⟨hoff, ht⟩ := access_offset s r
  rw [busRead_reg hoff ht, if_neg (by obtain h | h := h <;> simp [h])]

theorem busWrite_offset (r : HostReg) (hp : p = s.params.base) (h : s.run = false ∨ r.writableInRun = true)
    (v : Word) : busWrite (p + r.offset) 64 v s = hostRegWrite r v s := by
  subst hp
  obtain ⟨hoff, ht⟩ := access_offset s r
  rw [busWrite_reg hoff ht, if_neg (by obtain h | h := h <;> simp [h])]

/-- R376: in a run a write changes nothing, or it is one of a register that a run lets the host write. -/
theorem busWrite_of_run (hrun : s.run = true) (v : Word) :
    busWrite addr width v s = s ∨ ∃ r : HostReg, r.writableInRun = true ∧ width = 64 ∧
      addr = s.params.base + r.offset ∧ busWrite addr width v s = hostRegWrite r v s := by
  cases hoff : blockOffset s.params addr with
  | none => exact .inl (busWrite_outside hoff)
  | some off =>
    cases ht : hostTarget s.params off width with
    | nothing => exact .inl (busWrite_nothing hoff ht v)
    | imemWord i => exact .inl ((busWrite_imemWord hoff ht v).trans (if_pos hrun))
    | dmemWord a => exact .inl ((busWrite_dmemWord hoff ht v).trans (if_pos hrun))
    | reg r =>
      rw [busWrite_reg hoff ht]
      obtain ⟨hwidth, rfl⟩ := hostTarget_eq_reg_iff.1 ht
      cases hr : r.writableInRun with
      | false => exact .inl (by simp [hrun])
      | true => exact .inr ⟨r, hr, hwidth, blockOffset_eq_some hoff, by simp⟩

/-- R376: in a run a read returns 0, or it is one of a register that a run lets the host read. -/
theorem busRead_of_run (hrun : s.run = true) :
    busRead s addr width = none ∨ busRead s addr width = some 0 ∨
      ∃ r : HostReg, r.readableInRun = true ∧ width = 64 ∧ addr = s.params.base + r.offset := by
  cases hoff : blockOffset s.params addr with
  | none => exact .inl (busRead_outside hoff)
  | some off =>
    cases ht : hostTarget s.params off width with
    | nothing => exact .inr (.inl (busRead_nothing hoff ht))
    | imemWord i => exact .inr (.inl (by rw [busRead_imemWord hoff ht, if_pos hrun]))
    | dmemWord a => exact .inr (.inl (by rw [busRead_dmemWord hoff ht, if_pos hrun]))
    | reg r =>
      obtain ⟨hwidth, rfl⟩ := hostTarget_eq_reg_iff.1 ht
      cases hr : r.readableInRun with
      | false => exact .inr (.inl (by simp [busRead_reg hoff ht, hrun, hr]))
      | true => exact .inr (.inr ⟨r, hr, hwidth, blockOffset_eq_some hoff⟩)

end

/-! ### The IMEM window (20_memory.md R103) -/

theorem hostTarget_imemWindow (p : Params) {a : Nat} (width : Nat) (h : a < 0x10000) :
    hostTarget p (0x10000 + a) width =
      if width = 32 ∧ a % 4 = 0 ∧ a / 4 < p.imemWords then .imemWord (a / 4) else .nothing := by
  have haligned : (0x10000 + a) % 4 = a % 4 := by omega
  rw [hostTarget, if_pos (by omega), haligned, Nat.add_sub_cancel_left]

/-- Settles O57: the window's offset reaches the word at its quarter or nothing, and the word only while the kernel is
idle. -/
theorem imemWindowAccess : Obligations.ImemWindowAccess := by
  intro s off width v addr hlt haddr
  have hoff : blockOffset s.params addr = some (0x10000 + off) := by
    rw [haddr, Nat.add_assoc]
    exact blockOffset_base_add s.params (by omega)
  have htarget := hostTarget_imemWindow s.params width hlt
  by_cases hword : width = 32 ∧ off % 4 = 0 ∧ off / 4 < s.params.imemWords
  · rw [if_pos hword] at htarget
    rw [busRead_imemWord hoff htarget, busWrite_imemWord hoff htarget, BitVec.ofNat_toNat, BitVec.ofNat_toNat]
    obtain ⟨hwidth, haligned, hin⟩ := hword
    by_cases hrun : s.run = true
    · rw [if_pos hrun, if_pos hrun]
      exact ⟨fun ⟨_, _, _, hidle⟩ => absurd (hrun.symm.trans hidle) (by decide), fun _ => ⟨rfl, rfl⟩⟩
    · rw [if_neg hrun, if_neg hrun]
      exact ⟨fun _ => ⟨rfl, imemRead_imemWrite .., fun i => imemRead_imemWrite_of_ne s _ i _, rfl⟩,
        fun h => absurd ⟨hwidth, haligned, hin, Bool.eq_false_iff.2 hrun⟩ h⟩
  · rw [if_neg hword] at htarget
    rw [busRead_nothing hoff htarget, busWrite_nothing hoff htarget]
    exact ⟨fun ⟨hwidth, haligned, hin, _⟩ => absurd ⟨hwidth, haligned, hin⟩ hword, fun _ => ⟨rfl, rfl⟩⟩

/-! ### Registers written and read back (R375) -/

section
variable {s : State} {p : Nat}

/-- A write of a register other than CTRL moves neither the block nor the run. -/
theorem hostRegWrite_keeps {r : HostReg} (hr : r ≠ .ctrl) (v : Word) (s : State) :
    (hostRegWrite r v s).params = s.params ∧ (hostRegWrite r v s).run = s.run := by
  cases r
  case ctrl => exact absurd rfl hr
  case accLo | accHi => exact ⟨setAcc_params .., setAcc_run ..⟩
  all_goals exact ⟨rfl, rfl⟩

theorem busRead_of_idle (r : HostReg) (hp : p = s.params.base) (hidle : s.run = false) :
    busRead s (p + r.offset) 64 = some (BitVec.ofNat 64 (r.number s)) := by
  rw [busRead_offset r hp (.inl hidle), hostRegValue_eq]

/-- What a register of an idle block reads after the write of one. -/
theorem busRead_busWrite (r r' : HostReg) (hp : p = s.params.base) (hidle : s.run = false) (hr : r ≠ .ctrl) (v : Word)
    {n : Nat} (hn : r'.number (hostRegWrite r v s) = n) :
    busRead (busWrite (p + r.offset) 64 v s) (p + r'.offset) 64 = some (BitVec.ofNat 64 n) := by
  obtain ⟨hparams, hrun⟩ := hostRegWrite_keeps hr v s
  rw [busWrite_offset r hp (.inl hidle), busRead_of_idle r' (hparams ▸ hp) (hrun.trans hidle), hn]

theorem toNat_decide_mod_two (n : Nat) : (decide (n % 2 = 1)).toNat = n % 2 := by
  obtain h | h := Nat.mod_two_eq_zero_or_one n <;> simp [h]

/-- R43: STATUS after a write of IE. -/
theorem number_status_of_ie (hidle : s.run = false) (v : Word) :
    HostReg.status.number { s with ie := statusIe v } =
      2 * s.done.toNat + 4 * s.err.toNat + 8 * (v.toNat / 8 % 2) := by
  simp only [HostReg.number, statusIe, toNat_decide_mod_two, hidle, Bool.toNat_false, Nat.zero_add]

/-- 10_state.md R34: the halves of ACC after a write of the low one. -/
theorem number_acc_of_low (s : State) (v : Word) :
    HostReg.accLo.number (hostRegWrite .accLo v s) = v.toNat ∧
      HostReg.accHi.number (hostRegWrite .accLo v s) = HostReg.accHi.number s := by
  have hacc : (hostRegWrite .accLo v s).acc.toNat = s.acc.toNat / 2 ^ 64 * 2 ^ 64 + v.toNat :=
    toNat_wrap128_of_lt (by omega)
  simp only [HostReg.number, hacc]
  omega

/-- 10_state.md R34: the halves of ACC after a write of the high one. -/
theorem number_acc_of_high (s : State) (v : Word) :
    HostReg.accHi.number (hostRegWrite .accHi v s) = v.toNat ∧
      HostReg.accLo.number (hostRegWrite .accHi v s) = HostReg.accLo.number s := by
  have hacc : (hostRegWrite .accHi v s).acc.toNat = v.toNat * 2 ^ 64 + s.acc.toNat % 2 ^ 64 :=
    toNat_wrap128_of_lt (by omega)
  simp only [HostReg.number, hacc]
  omega

end

/-- Settles O55: an access at a register's offset is one of the register, and outside the windows there is nothing
else; each write is read back through the number it leaves. -/
theorem hostRegistersReadBack : Obligations.HostRegistersReadBack := by
  intro s v i p hidle hp
  have hread (r : HostReg) : busRead s (p + r.offset) 64 = some (BitVec.ofNat 64 (r.number s)) :=
    busRead_of_idle r hp hidle
  have hwrite (r : HostReg) : busWrite (p + r.offset) 64 v s = hostRegWrite r v s :=
    busWrite_offset r hp (.inl hidle) v
  have hback (r r' : HostReg) (hr : r ≠ .ctrl) {n : Nat} (hn : r'.number (hostRegWrite r v s) = n) :
      busRead (busWrite (p + r.offset) 64 v s) (p + r'.offset) 64 = some (BitVec.ofNat 64 n) :=
    busRead_busWrite r r' hp hidle hr v hn
  have hword : some (BitVec.ofNat 64 v.toNat) = some v := by rw [BitVec.ofNat_toNat, BitVec.setWidth_eq]
  have hx : p + 0x100 + 8 * i.val = p + (HostReg.x i).offset := Nat.add_assoc ..
  rw [hx]
  refine ⟨?map, ?readOnly, ?unmapped, hwrite .status, ?startPc, hwrite .kthresh, hwrite .flags, ?x, hwrite .accLo,
    hwrite .accHi, ?statusBack, ?startPcBack, ?kthreshBack, ?flagsBack, ?xBack, ?lowBack, ?lowOther, ?highBack,
    ?highOther⟩
  case map =>
    intro off n hmem
    obtain ⟨r, rfl, rfl⟩ := mem_registerMap_iff.1 hmem
    exact hread r
  case readOnly =>
    simp only [List.forall_mem_cons]
    exact ⟨hwrite .cause, hwrite .epc, hwrite .einfo, hwrite .id, hwrite .lmax, hwrite .imemw, hwrite .dmemb,
      hwrite .pc, List.forall_mem_nil _⟩
  case unmapped =>
    intro off width hout hnone
    have hoff : blockOffset s.params (p + off) = some off := hp ▸ blockOffset_base_add s.params (by omega)
    have htarget : hostTarget s.params off width = .nothing := by
      refine hostTarget_eq_nothing hout fun r ⟨hwidth, hr⟩ => ?_
      obtain hne | hmem := hnone
      · exact hne hwidth
      · exact hmem _ (mem_registerMap_iff.2 ⟨r, hr, rfl⟩)
    exact ⟨busRead_nothing hoff htarget, busWrite_nothing hoff htarget v⟩
  case startPc =>
    rw [BitVec.ofNat_toNat]
    exact hwrite .startPc
  case x =>
    rintro t rfl
    rw [hwrite]
    exact ⟨rfl, fun k => readX_writeX s i k v⟩
  case statusBack => exact hback .status .status nofun (number_status_of_ie hidle v)
  case startPcBack => exact hback .startPc .startPc nofun (BitVec.toNat_setWidth ..)
  case kthreshBack => exact hback .kthresh .kthresh nofun (kthreshClamp_legal v)
  case flagsBack => exact hback .flags .flags nofun (toNat_decide_mod_two _)
  case xBack =>
    rw [hback (.x i) (.x i) nofun (congrArg BitVec.toNat (readX_writeX s i i v)), BitVec.ofNat_toNat,
      BitVec.setWidth_eq]
    by_cases hi : i = 0 <;> simp [hi]
  case lowBack => exact (hback .accLo .accLo nofun (number_acc_of_low s v).1).trans hword
  case lowOther =>
    exact (hback .accLo .accHi nofun (number_acc_of_low s v).2).trans (hread .accHi).symm
  case highBack => exact (hback .accHi .accHi nofun (number_acc_of_high s v).1).trans hword
  case highOther =>
    exact (hback .accHi .accLo nofun (number_acc_of_high s v).2).trans (hread .accLo).symm

end Sys2Proof.Machine
end

section
/-! PROOFS. The commands of CTRL, 60_exceptions.md R377 to R379 and 70_reset_and_hazards.md R402, and what a run lets
through to the host (60_exceptions.md R376). -/

namespace Sys2Proof.Machine

/-! ### Commands (R377) -/

section
variable {s : State} {v : Word} {p : Nat}

theorem busWrite_ctrl (hp : p = s.params.base) (v : Word) : busWrite p 64 v s = ctrlWrite v s :=
  busWrite_offset .ctrl hp (.inr rfl) v

/-- CTRL reads 0, in a run too. -/
theorem busRead_ctrl (s : State) : busRead s s.params.base 64 = some 0 := by
  obtain ⟨hoff, ht⟩ := access_offset s .ctrl
  exact (busRead_reg hoff ht).trans (congrArg some (ite_self _))

theorem ctrlWrite_of_sreset (h : v.toNat / 2 % 2 = 1) : ctrlWrite v s = softReset s :=
  if_pos (decide_eq_true h)

theorem ctrlWrite_of_run (h : v.toNat / 2 % 2 = 0) (hrun : s.run = true) : ctrlWrite v s = s := by
  simp [ctrlWrite, dataBit, h, hrun]

/-- Without SRESET an idle block takes CLR and then GO. -/
theorem ctrlWrite_of_idle (h : v.toNat / 2 % 2 = 0) (hidle : s.run = false) {t : State}
    (ht : t = if v.toNat / 4 % 2 = 1 then clr s else s) : ctrlWrite v s = if v.toNat % 2 = 1 then go t else t := by
  have htrun : t.run = false := by rw [ht]; split <;> exact hidle
  simp [ctrlWrite, dataBit, h, hidle, ← ht, htrun]

theorem busWrite_go (hp : p = s.params.base) (hidle : s.run = false) : busWrite p 64 1 s = go s :=
  (busWrite_ctrl hp 1).trans (ctrlWrite_of_idle rfl hidle rfl)

theorem busWrite_clr (hp : p = s.params.base) (hidle : s.run = false) : busWrite p 64 4 s = clr s :=
  (busWrite_ctrl hp 4).trans (ctrlWrite_of_idle rfl hidle rfl)

theorem busWrite_sreset (hp : p = s.params.base) : busWrite p 64 2 s = softReset s :=
  (busWrite_ctrl hp 2).trans (ctrlWrite_of_sreset rfl)

/-- A state whose memories are the same lists after the same power-on. -/
theorem keepsMemory_of_eq {t : State} (himem : t.imem = s.imem) (hdmem : t.dmem = s.dmem)
    (hpower : t.powerOns = s.powerOns) : KeepsMemory s t := by
  have hbytes : imemByte t = imemByte s := by funext a; rw [imemByte, imemByte, himem, hpower]
  exact ⟨fun a => by rw [dmemByte, dmemByte, hdmem, hpower], fun i => by rw [imemRead, imemRead, hbytes]⟩

end

/-- Settles O50: the write of 1 is GO alone. -/
theorem goStartsARun : Obligations.GoStartsARun := by
  intro s
  refine ⟨fun hrun => ?_, fun hidle => ?_⟩
  · rw [busWrite_ctrl rfl, ctrlWrite_of_run rfl hrun]
  · rintro t rfl
    rw [busWrite_go rfl hidle]
    exact ⟨rfl, rfl, rfl, rfl, rfl, rfl, rfl, rfl, rfl, rfl, rfl, fun _ => rfl, fun _ => rfl, ⟨rfl, rfl⟩,
      ⟨fun _ => rfl, fun _ => rfl⟩, ⟨rfl, rfl, rfl, rfl⟩⟩

/-- Settles O51: the write of 4 is CLR alone, which leaves the interrupt output nothing to report. -/
theorem clrAcknowledgesARun : Obligations.ClrAcknowledgesARun := by
  rintro s t hidle rfl
  rw [busWrite_clr rfl hidle]
  refine ⟨rfl, rfl, rfl, rfl, rfl, ?irq, hidle, rfl, rfl, rfl, rfl, rfl, fun _ => rfl, fun _ => rfl, ⟨rfl, rfl⟩,
    ⟨fun _ => rfl, fun _ => rfl⟩, ⟨rfl, rfl, rfl, rfl⟩⟩
  case irq => simp [irq]

/-- Settles O52: one equation of `ctrlWrite` for each case of R377. -/
theorem ctrlBitsActInOrder : Obligations.CtrlBitsActInOrder := by
  intro s v
  refine ⟨fun hreset => ?reset, fun hnot hidle t ht => ?commands, fun hnot hrun => ?run, ?read⟩
  case reset => rw [busWrite_ctrl rfl, ctrlWrite_of_sreset hreset, busWrite_sreset rfl]
  case commands =>
    rw [busWrite_clr rfl hidle] at ht
    obtain ⟨hbase, htrun⟩ : s.params.base = t.params.base ∧ t.run = false := by
      rw [ht]; split <;> exact ⟨rfl, hidle⟩
    rw [busWrite_ctrl rfl, ctrlWrite_of_idle hnot hidle ht, busWrite_go hbase htrun]
  case run => rw [busWrite_ctrl rfl, ctrlWrite_of_run hnot hrun]
  case read => exact busRead_ctrl s

/-! ### Soft reset (70_reset_and_hazards.md R402) -/

theorem Effect.powerOns_eq {s t : State} (h : Effect s t) : t.powerOns = s.powerOns := by
  cases h with
  | store a ws _ => rw [memWriteWords_keeps]; rfl
  | _ => rfl

theorem softResetKeeps_powerOns (s : State) : (softResetKeeps s).powerOns = s.powerOns := by
  obtain heq | hk := softResetKeeps_cases s
  · rw [heq]
  · obtain heq | ⟨_, heffect⟩ := kernelStep_effect hk
    · rw [heq]
    · exact heffect.powerOns_eq

theorem softReset_keepsMemory (s : State) : KeepsMemory (softResetKeeps s) (softReset s) :=
  keepsMemory_of_eq rfl rfl (softResetKeeps_powerOns s).symm

theorem softResetKeeps_of_idle {s : State} (hidle : s.run = false) : softResetKeeps s = s := by
  simp [softResetKeeps, hidle]

/-- Settles O53: the registers are those of `State.resetOf`, the memories those of `softResetKeeps` (log 8). -/
theorem softResetKeepsMemoryOnly : Obligations.SoftResetKeepsMemoryOnly := by
  rintro s t rfl
  rw [busWrite_sreset rfl]
  have hkeeps := softReset_keepsMemory s
  refine ⟨readX_eq_zero rfl, rfl, rfl, readB_eq_zero rfl, rfl, rfl, rfl, rfl, rfl, rfl, rfl, rfl, rfl, rfl, rfl, rfl,
    rfl, fun hidle => ?idle, fun _ => ?run⟩
  case idle => rwa [softResetKeeps_of_idle hidle] at hkeeps
  case run =>
    obtain heq | hk := softResetKeeps_cases s
    · rw [heq] at hkeeps
      exact .inl hkeeps
    · exact .inr ⟨_, hk, hkeeps⟩

/-! ### During a run (R376) -/

/-- Settles O54: in a run a write reaches STATUS or CTRL alone, and a read one of the five registers. -/
theorem runShutsTheHostOut : Obligations.RunShutsTheHostOut := by
  intro s addr width v hrun
  have hread (r : HostReg) (hr : r.readableInRun = true) :
      busRead s (s.params.base + r.offset) 64 = some (BitVec.ofNat 64 (r.number s)) := by
    rw [busRead_offset r rfl (.inr hr), hostRegValue_eq]
  refine ⟨⟨fun hstatus hreset => ?write, busWrite_offset .status rfl (.inr rfl) v⟩, fun hinside hne => ?read, ?status,
    hread .id rfl, hread .lmax rfl, hread .imemw rfl, hread .dmemb rfl⟩
  case write =>
    obtain hsame | ⟨r, hr, rfl, rfl, hwrite⟩ := busWrite_of_run (addr := addr) (width := width) hrun v
    · exact hsame
    · cases r
      case ctrl =>
        rw [hwrite]
        exact ctrlWrite_of_run ((Nat.mod_two_eq_zero_or_one _).resolve_right fun h => hreset ⟨rfl, rfl, h⟩) hrun
      case status => exact absurd ⟨rfl, rfl⟩ hstatus
      all_goals cases hr
  case read =>
    obtain hnone | hzero | ⟨r, hr, hwidth, haddr⟩ := busRead_of_run hrun
    · exact absurd hnone hinside
    · exact absurd hzero hne
    · refine ⟨hwidth, ?_⟩
      subst haddr
      cases r
      case status | id | lmax | imemw | dmemb => simp [HostReg.offset]
      all_goals cases hr
  case status =>
    have hnumber : HostReg.status.number s = 1 + 2 * s.done.toNat + 4 * s.err.toNat + 8 * s.ie.toNat := by
      rw [HostReg.number, hrun, Bool.toNat_true]
    exact hnumber ▸ hread .status rfl

end Sys2Proof.Machine
end
